-- ==== Sys2Proof/Word.lean ====
section
/-! DEFINITION. The word types of the ULFR (spec/00_scope.md R11): bytes, 32-bit addresses, and the two
storage units the Write Engine handles, a 4-byte half and an 8-byte phrase. -/

namespace Sys2Proof

/-- `u8` (spec/00_scope.md R11). -/
abbrev Byte := BitVec 8

/-- `u32`, the width of every address (`ADDR_BITS = 32`, spec/00_scope.md R9). -/
abbrev Addr := BitVec 32

/-- A 32-bit status register value (spec/10_state.md R47). -/
abbrev Word32 := BitVec 32

/-- Half of a program unit, `HALF = 4` bytes in address order (spec/00_scope.md R9, spec/10_state.md R33). -/
structure Half where
  b0 : Byte
  b1 : Byte
  b2 : Byte
  b3 : Byte
deriving DecidableEq, Repr

/-- A phrase: `WRITE_GRAN = 8` bytes in address order; the low half lies at the lower addresses
(spec/00_scope.md R16, spec/20_memory.md R65). -/
structure Phrase where
  lo : Half
  hi : Half
deriving DecidableEq, Repr

end Sys2Proof
end

