-- ==== Sys2Proof/Config.lean ====
section
/-! DEFINITION. The implementation parameters of the ULFR as one configuration record (spec/00_scope.md R9),
the values of the spec's own common setup CFG0 (spec/95_test_vectors.md section 0), and the free values: what
the storage array holds after a draw (spec/44_storage.md R235), how stale a HOST read is (spec/20_memory.md R84), and the parameters no file of the spec sets. -/

namespace Sys2Proof

/-- `HEX_ERROR_MODE` (spec/42_record_parser.md R176, R177). -/
inductive HexErrorMode where
  | reject
  | zeroSubstitute
deriving DecidableEq, Repr

/-- `LA_OVERFLOW_MODE` (spec/41_line_assembler.md R152). -/
inductive OverflowMode where
  | resetContinue
  | discardToNewline
deriving DecidableEq, Repr

/-- `CONS_ORDER` (spec/41_line_assembler.md R156). -/
inductive ConsOrder where
  | free
  | linesFirst
  | bytesFirst
deriving DecidableEq, Repr

/-- `IMAGE_WORD_ORDER` (spec/20_memory.md R66): the byte order of the image's 32-bit header words.
DESIGN CHOICE (log 14): the two usual orders are the ones a configuration can name. -/
inductive WordOrder where
  | littleEndian
  | bigEndian
deriving DecidableEq, Repr, Inhabited

/-- `KIND_DIGITS`: the kind byte of each of the six record kinds (spec/30_encoding.md R93). -/
structure KindDigits where
  data16 : Byte
  data24 : Byte
  data32 : Byte
  end32 : Byte
  end24 : Byte
  end16 : Byte
deriving DecidableEq, Repr

/-- The parameters of spec/00_scope.md R9 that a rule reads. Each field is the parameter of the same name. -/
structure Config where
  /-- `BQ_CAP` -/
  bqCap : Nat
  /-- `LINE_MAX`, newline excluded -/
  lineMax : Nat
  /-- `RQ_CAP` -/
  rqCap : Nat
  /-- `WRITE_GRAN`; R10 admits 8 only -/
  writeGran : Nat
  /-- `HALF`; R10 admits 4 only -/
  half : Nat
  /-- `SECTOR_SIZE` -/
  sectorSize : Nat
  /-- `REGION_START`, hardwired (spec/10_state.md R25) -/
  regionStart : Addr
  /-- `REGION_LEN`, hardwired (spec/10_state.md R25) -/
  regionLen : Addr
  /-- `MARKER` -/
  marker : Byte
  /-- `KIND_DIGITS` -/
  kinds : KindDigits
  /-- `NEWLINE` -/
  newline : Byte
  /-- `HEX_ERROR_MODE` -/
  hexMode : HexErrorMode
  /-- `LA_OVERFLOW_MODE` -/
  overflowMode : OverflowMode
  /-- `CONS_ORDER` -/
  consOrder : ConsOrder
  /-- `BQ_STALE_VIEW` -/
  bqStaleView : Bool
  /-- `RX_HOLD_DEPTH` -/
  rxHoldDepth : Nat
  /-- `SC_OPC_PROGRAM8` (spec/44_storage.md R237) -/
  scOpcProgram8 : Nat
  /-- `SC_OPC_ERASE` (spec/44_storage.md R237) -/
  scOpcErase : Nat
  /-- `BOOT_SEL_ACTIVE` -/
  bootSelActive : Bool
  /-- `IMAGE_WORD_ORDER` -/
  imageWordOrder : WordOrder
  /-- `CNT_BITS` -/
  cntBits : Nat
  /-- `CSR_BASE` -/
  csrBase : Nat
deriving DecidableEq, Repr

namespace Config

/-- `ADDR_BITS` (R9), the width of the type `Addr`. -/
def addrBits : Nat := 32
/-- `BAUD`, `DATA_BITS`, `PARITY` (none), `STOP_BITS` (R9); no rule depends on them (spec/70_reset_and_hazards.md R314). -/
def baud : Nat := 9600
def dataBits : Nat := 8
def parityBits : Nat := 0
def stopBits : Nat := 1
/-- `PAYLOAD_NOMINAL_MAX` (R9): informative only, enforced by no rule (D37). -/
def payloadNominalMax : Nat := 250
/-- `ERASED_BYTE` (R9, spec/44_storage.md R245). -/
def erasedByte : Byte := 0xFF
/-- `ERASED_WORD` (R9, spec/44_storage.md R245). -/
def erasedWord : Word32 := 0xFFFFFFFF

/-- `draw(u8)` (spec/00_scope.md R13): a byte under no law. The k-th draw of a run is `drawByte k`; no proof
can see its value (log 6). -/
opaque drawByte : Nat → Byte

/-- How old the content is that a HOST read of storage sees: 0 the newest, `n` the one `n` commands ago. Whether such a
read can be stale may not be assumed either way (spec/20_memory.md R84); no proof can see its value (log 15). -/
opaque readAge : Nat → Nat

/-- The OPEN parameters to which no file of the spec gives a value, not even for its vectors (log 3). -/
opaque openScOpcProgram8 : Nat
opaque openScOpcErase : Nat
opaque openImageWordOrder : WordOrder
opaque openCsrBase : Nat

/-- The default kind digits `1` `2` `3` `7` `8` `9` (spec/30_encoding.md R93). -/
def defaultKinds : KindDigits where
  data16 := 0x31
  data24 := 0x32
  data32 := 0x33
  end32 := 0x37
  end24 := 0x38
  end16 := 0x39

/-- CFG0 (spec/95_test_vectors.md section 0): every default of R9, the window [0x8000, 0x10000),
`RX_HOLD_DEPTH = 1`, `BOOT_SEL_ACTIVE = true`. DESIGN CHOICE as the configuration of reset (log 3). -/
def cfg0 : Config where
  bqCap := 200
  lineMax := 256
  rqCap := 4
  writeGran := 8
  half := 4
  sectorSize := 4096
  regionStart := 0x8000
  regionLen := 0x8000
  marker := 0x53
  kinds := defaultKinds
  newline := 0x0A
  hexMode := .reject
  overflowMode := .resetContinue
  consOrder := .free
  bqStaleView := false
  rxHoldDepth := 1
  scOpcProgram8 := openScOpcProgram8
  scOpcErase := openScOpcErase
  bootSelActive := true
  imageWordOrder := openImageWordOrder
  cntBits := 32
  csrBase := openCsrBase

end Config
end Sys2Proof
end

