-- ==== Sys2Proof/Syntax.lean ====
section
/-! DEFINITION. The syntax of the ULFR: one constructor of `Instr` per row of spec/opcode_table.json. The seven
rows of format REC are the record lines of the input language (spec/30_encoding.md R91, R93); the 27 rows of
format OP are the operations of the block's agents (spec/30_encoding.md R106). -/

namespace Sys2Proof

/-- Which index copy a BQ_SYNC step refreshes: field `side`, 0 = read copy, 1 = write copy
(spec/40_byte_queue.md R135). -/
inductive Side where
  | readCopy
  | writeCopy
deriving DecidableEq, Repr

/-- The completion status of a storage command: 0 = OK, 1 = FAIL (spec/30_encoding.md R107). -/
inductive Status where
  | ok
  | fail
deriving DecidableEq, Repr

/-- One row of the opcode table each, with its operands. A record line's operands (count, address, payload,
checksum, trailing bytes) are text, so a record constructor holds the line's text: `tail` is the line from
offset 2 on; REC_OTHER holds the whole line, since its first two bytes may be absent (spec/42_record_parser.md
R184). The operations whose operands come from the machine's state carry none. -/
inductive Instr where
  | recData16 (tail : List Byte)
  | recData24 (tail : List Byte)
  | recData32 (tail : List Byte)
  | recEnd32 (tail : List Byte)
  | recEnd24 (tail : List Byte)
  | recEnd16 (tail : List Byte)
  | recOther (line : List Byte)
  | bqPush (b : Byte)
  | rxHold (b : Byte)
  | bqPop
  | bqSync (side : Side)
  | rxRelease
  | laAppend
  | laOverflow
  | laEolEmit
  | laEolNoise
  | rqPush
  | rqPop
  | parse
  | weRecord
  | weCaseA
  | weCaseB
  | weCaseC
  | weSkip
  | weEnd
  | weFinish
  | scProgram8 (status : Status)
  | scEraseSector (status : Status)
  | scDone (status : Status)
  | eraseRegion
  | eraseStep
  | sessionInit
  | ctlRamReady
  | ctlRun
deriving DecidableEq, Repr

/-- What a step fetches, before decoding: a trace step, that is a 5-bit operation code (spec/30_encoding.md
R106) with the operand byte the step carries (log 5), or a record line, its bytes from the marker on. -/
inductive Fetched where
  | op (code : BitVec 5) (arg : Byte)
  | line (bytes : List Byte)
deriving DecidableEq, Repr

end Sys2Proof
end

