-- ==== Sys2Proof/WellFormed.lean ====
section
/-! DEFINITION. Which configurations the model runs (spec/00_scope.md R10) and which instructions are well
formed: a record line is one the Line Assembler can deliver (spec/41_line_assembler.md R151 to R153), and a
REC_OTHER line is one no kind row takes. -/

namespace Sys2Proof

/-- `KIND_DIGITS` as a list, in the order of spec/00_scope.md R9. -/
def KindDigits.toList (k : KindDigits) : List Byte :=
  [k.data16, k.data24, k.data32, k.end32, k.end24, k.end16]

/-- R10: a configuration is well formed only if all of these hold; a model refuses any other. -/
def Config.wf (c : Config) : Bool :=
  decide (c.regionStart.toNat % c.sectorSize = 0) &&
  decide (c.regionLen.toNat % c.sectorSize = 0) &&
  decide (0 < c.regionLen.toNat) &&
  decide (c.regionStart.toNat + c.regionLen.toNat ≤ 2 ^ 32) &&
  decide (c.writeGran = 8) &&
  decide (c.half = 4) &&
  decide (1 ≤ c.bqCap) &&
  decide (1 ≤ c.rqCap) &&
  decide (1 ≤ c.lineMax) &&
  decide (c.marker ≠ c.newline) &&
  decide c.kinds.toList.Nodup

/-- A line's bytes as the Line Assembler delivers them: at most `LINE_MAX` bytes, none of them `NEWLINE`
(spec/10_state.md R29, spec/30_encoding.md R90). -/
def lineOk (c : Config) (line : List Byte) : Bool :=
  decide (line.length ≤ c.lineMax) && decide (c.newline ∉ line)

/-- The lines that no kind row takes: no marker first, no second byte, or a second byte that is no kind digit
(spec/42_record_parser.md R184). -/
def otherLine (c : Config) : List Byte → Bool
  | m :: d :: _ => decide (m ≠ c.marker) || decide (d ∉ c.kinds.toList)
  | _ => true

/-- A record constructor is well formed when its whole line is; an operation always is. -/
def Instr.wf (c : Config) : Instr → Bool
  | .recData16 t => lineOk c (c.marker :: c.kinds.data16 :: t)
  | .recData24 t => lineOk c (c.marker :: c.kinds.data24 :: t)
  | .recData32 t => lineOk c (c.marker :: c.kinds.data32 :: t)
  | .recEnd32 t => lineOk c (c.marker :: c.kinds.end32 :: t)
  | .recEnd24 t => lineOk c (c.marker :: c.kinds.end24 :: t)
  | .recEnd16 t => lineOk c (c.marker :: c.kinds.end16 :: t)
  | .recOther l => lineOk c l && otherLine c l
  | .bqPush _ | .rxHold _ | .bqPop | .bqSync _ | .rxRelease | .laAppend | .laOverflow | .laEolEmit
  | .laEolNoise | .rqPush | .rqPop | .parse | .weRecord | .weCaseA | .weCaseB | .weCaseC | .weSkip
  | .weEnd | .weFinish | .scProgram8 _ | .scEraseSector _ | .scDone _ | .eraseRegion | .eraseStep
  | .sessionInit | .ctlRamReady | .ctlRun => true

end Sys2Proof
end

