-- ==== Sys2Proof/Decode.lean ====
section
/-! DEFINITION. The decoder: a record line to its kind (spec/30_encoding.md R93), a 5-bit operation code to its
operation (spec/30_encoding.md R106), each code that names no operation rejected by name; then the encoder,
from the same tables; then `decodeTableWord`, the decoder over the words of spec/opcode_table.json. -/

namespace Sys2Proof

/-- The record kinds (spec/10_state.md R32). -/
inductive Kind where
  | data16
  | data24
  | data32
  | end32
  | end24
  | end16
  | other
deriving DecidableEq, Repr

/-- Why a trace step is rejected. -/
inductive Reject where
  /-- The code names no operation: 0x00, 0x06, 0x07, 0x0F, 0x17 (R106). -/
  | unusedCode (code : BitVec 5)
  /-- The operand byte has a bit set that the operation has no operand for (log 5). -/
  | badOperand (code : BitVec 5) (arg : Byte)
deriving DecidableEq, Repr

/-- The kind a kind byte selects; any byte that is no kind digit gives `other` (R93). -/
def Config.kindOf (c : Config) (d : Byte) : Kind :=
  if d = c.kinds.data16 then .data16
  else if d = c.kinds.data24 then .data24
  else if d = c.kinds.data32 then .data32
  else if d = c.kinds.end32 then .end32
  else if d = c.kinds.end24 then .end24
  else if d = c.kinds.end16 then .end16
  else .other

/-- The kind of a line: `other` without the marker first or without a second byte
(spec/42_record_parser.md R170 steps 1 and 2). -/
def lineKind (c : Config) : List Byte → Kind
  | m :: d :: _ => if m = c.marker then c.kindOf d else .other
  | _ => .other

/-- A record line to its REC row: total, since every line has a kind (R93, R184). -/
def decodeLine (c : Config) (line : List Byte) : Instr :=
  match lineKind c line with
  | .data16 => .recData16 (line.drop 2)
  | .data24 => .recData24 (line.drop 2)
  | .data32 => .recData32 (line.drop 2)
  | .end32 => .recEnd32 (line.drop 2)
  | .end24 => .recEnd24 (line.drop 2)
  | .end16 => .recEnd16 (line.drop 2)
  | .other => .recOther line

/-- An operation without an operand: its operand byte is 0 (log 5). -/
def plainOp (i : Instr) (code : BitVec 5) (arg : Byte) : Except Reject Instr :=
  if arg = 0 then .ok i else .error (.badOperand code arg)

/-- Field `side` of BQ_SYNC: 0 = read copy, 1 = write copy (spec/40_byte_queue.md R135). -/
def sideOp (f : Side → Instr) (code : BitVec 5) (arg : Byte) : Except Reject Instr :=
  if arg = 0 then .ok (f .readCopy) else if arg = 1 then .ok (f .writeCopy)
  else .error (.badOperand code arg)

/-- The status field: 0 = OK, 1 = FAIL (spec/30_encoding.md R107, spec/44_storage.md R233). -/
def statusOp (f : Status → Instr) (code : BitVec 5) (arg : Byte) : Except Reject Instr :=
  if arg = 0 then .ok (f .ok) else if arg = 1 then .ok (f .fail)
  else .error (.badOperand code arg)

/-- The table of spec/30_encoding.md R106. -/
def decodeOp (code : BitVec 5) (arg : Byte) : Except Reject Instr :=
  match code.toNat with
  | 0x01 => .ok (.bqPush arg)
  | 0x02 => .ok (.rxHold arg)
  | 0x03 => plainOp .bqPop code arg
  | 0x04 => sideOp .bqSync code arg
  | 0x05 => plainOp .rxRelease code arg
  | 0x08 => plainOp .laAppend code arg
  | 0x09 => plainOp .laOverflow code arg
  | 0x0A => plainOp .laEolEmit code arg
  | 0x0B => plainOp .laEolNoise code arg
  | 0x0C => plainOp .rqPush code arg
  | 0x0D => plainOp .rqPop code arg
  | 0x0E => plainOp .parse code arg
  | 0x10 => plainOp .weRecord code arg
  | 0x11 => plainOp .weCaseA code arg
  | 0x12 => plainOp .weCaseB code arg
  | 0x13 => plainOp .weCaseC code arg
  | 0x14 => plainOp .weSkip code arg
  | 0x15 => plainOp .weEnd code arg
  | 0x16 => plainOp .weFinish code arg
  | 0x18 => statusOp .scProgram8 code arg
  | 0x19 => statusOp .scEraseSector code arg
  | 0x1A => statusOp .scDone code arg
  | 0x1B => plainOp .eraseRegion code arg
  | 0x1C => plainOp .eraseStep code arg
  | 0x1D => plainOp .sessionInit code arg
  | 0x1E => plainOp .ctlRamReady code arg
  | 0x1F => plainOp .ctlRun code arg
  | _ => .error (.unusedCode code)

/-- Decoding, total on whatever a step fetches. -/
def decode (c : Config) : Fetched → Except Reject Instr
  | .op code arg => decodeOp code arg
  | .line bytes => .ok (decodeLine c bytes)

/-- Field `side` as an operand byte (R135). -/
def Side.toByte : Side → Byte
  | .readCopy => 0
  | .writeCopy => 1

/-- The status field as an operand byte (R107). -/
def Status.toByte : Status → Byte
  | .ok => 0
  | .fail => 1

/-- The encoder, from the tables of R93 and R106. -/
def encode (c : Config) : Instr → Fetched
  | .recData16 t => .line (c.marker :: c.kinds.data16 :: t)
  | .recData24 t => .line (c.marker :: c.kinds.data24 :: t)
  | .recData32 t => .line (c.marker :: c.kinds.data32 :: t)
  | .recEnd32 t => .line (c.marker :: c.kinds.end32 :: t)
  | .recEnd24 t => .line (c.marker :: c.kinds.end24 :: t)
  | .recEnd16 t => .line (c.marker :: c.kinds.end16 :: t)
  | .recOther l => .line l
  | .bqPush b => .op 0x01 b
  | .rxHold b => .op 0x02 b
  | .bqPop => .op 0x03 0
  | .bqSync side => .op 0x04 side.toByte
  | .rxRelease => .op 0x05 0
  | .laAppend => .op 0x08 0
  | .laOverflow => .op 0x09 0
  | .laEolEmit => .op 0x0A 0
  | .laEolNoise => .op 0x0B 0
  | .rqPush => .op 0x0C 0
  | .rqPop => .op 0x0D 0
  | .parse => .op 0x0E 0
  | .weRecord => .op 0x10 0
  | .weCaseA => .op 0x11 0
  | .weCaseB => .op 0x12 0
  | .weCaseC => .op 0x13 0
  | .weSkip => .op 0x14 0
  | .weEnd => .op 0x15 0
  | .weFinish => .op 0x16 0
  | .scProgram8 st => .op 0x18 st.toByte
  | .scEraseSector st => .op 0x19 st.toByte
  | .scDone st => .op 0x1A st.toByte
  | .eraseRegion => .op 0x1B 0
  | .eraseStep => .op 0x1C 0
  | .sessionInit => .op 0x1D 0
  | .ctlRamReady => .op 0x1E 0
  | .ctlRun => .op 0x1F 0

/-- The bytes of a line from the number the opcode table writes for them: the table's bits 15:8 are `line[0]` and
its bits 7:0 are `line[1]`, so the most significant byte comes first (opcode_table.json, rows of format REC). -/
def lineBytes : Nat → Nat → List Byte
  | 0, _ => []
  | n + 1, w => BitVec.ofNat 8 (w / 256 ^ n) :: lineBytes n w

/-- A word of the opcode table as what a step fetches. A row of format OP has 5 bits (one byte); a row of format
REC has the line's first two bytes and its line is those bytes alone (log 5). -/
def tableFetched (nbits w : Nat) : Fetched :=
  if nbits ≤ 8 then .op (BitVec.ofNat 5 w) (BitVec.ofNat 8 (w / 256))
  else .line (lineBytes (nbits / 8) w)

/-- The instruction the decoder reads from an opcode-table word, under the default marker and kind digits. -/
def decodeTableWord (nbits w : Nat) : Option Instr :=
  match decode Config.cfg0 (tableFetched nbits w) with
  | .ok i => some i
  | .error _ => none

end Sys2Proof
end

