-- ==== Sys2Proof/Machine/State.lean ====
section
/-! DEFINITION. The machine's state as plain data, holding every piece of state spec/10_state.md names, with the
storage array and the HOST of its section 12, and the model's own bookkeeping: the schedule of steps, the record of
emitted outputs and of HOST reads, what a stale read may see, and the count of draws. Then the state right after a power-on reset. -/

namespace Sys2Proof.Machine

/-- `bq_mem`, `bq_wr`, `bq_rd` and the two stale copies (spec/10_state.md R26, R28). -/
structure ByteQueue where
  mem : List Byte
  wr : Nat
  rd : Nat
  rdSeen : Nat
  wrSeen : Nat
deriving DecidableEq, Repr

/-- `la_buf`, `la_skip` (spec/10_state.md R29). -/
structure LineAssembler where
  buf : List Byte
  skip : Bool
deriving DecidableEq, Repr

/-- `pm_valid`, `pm_base`, `pm_low4` (spec/10_state.md R33). -/
structure PendingMerge where
  valid : Bool
  base : Addr
  low4 : Half
deriving DecidableEq, Repr

/-- `we_addr`, `we_data` (spec/10_state.md R36). -/
structure Cursor where
  addr : Addr
  data : List Byte
deriving DecidableEq, Repr

/-- The two storage commands (spec/30_encoding.md R107). -/
inductive StorageOp where
  | program8
  | eraseSector
deriving DecidableEq, Repr

/-- The Storage Command Port: `sc_busy`, the command register set (spec/44_storage.md R237), `ram_wait_ready`,
`storage_fail`, `erase_idx`, `erase_fail` (spec/10_state.md R37, R39). -/
structure StoragePort where
  busy : Bool
  op : StorageOp
  addr : Addr
  data : Phrase
  ramReady : Bool
  fail : Bool
  eraseIdx : Nat
  eraseFail : Bool
deriving DecidableEq, Repr

/-- `cons_state` (spec/10_state.md R40). -/
inductive ConsState where
  | off
  | idle
  | we
  | wait
  | erase
  | fault
deriving DecidableEq, Repr

/-- `wait_ret`: which state follows `sc_done` (spec/10_state.md R40). -/
inductive WaitRet where
  | we
  | endFlush
  | erase
deriving DecidableEq, Repr

/-- `cons_state`, `wait_ret`, `run_enabled` (spec/10_state.md R40). -/
structure ConsControl where
  state : ConsState
  waitRet : WaitRet
  runEnabled : Bool
deriving DecidableEq, Repr

/-- The eighteen event and traffic counters (spec/10_state.md R41, R43), `cnt_<name>` each. -/
structure Counters where
  bqDrop : Nat
  lineOverflow : Nat
  lineNoise : Nat
  rqDrop : Nat
  hexErr : Nat
  lenErr : Nat
  cksumFail : Nat
  recOther : Nat
  outOfRegion : Nat
  bytesUnhandled : Nat
  mergeLost : Nat
  storageFail : Nat
  rxLost : Nat
  lines : Nat
  dataRec : Nat
  endRec : Nat
  prog : Nat
  erase : Nat
deriving DecidableEq, Repr

/-- The counters' names, in the order of the status register map from index 0x10 (spec/10_state.md R47). -/
inductive CounterId where
  | bqDrop
  | lineOverflow
  | lineNoise
  | rqDrop
  | hexErr
  | lenErr
  | cksumFail
  | recOther
  | outOfRegion
  | bytesUnhandled
  | mergeLost
  | storageFail
  | rxLost
  | lines
  | dataRec
  | endRec
  | prog
  | erase
deriving DecidableEq, Repr

/-- The events E1 to E13 (spec/60_exceptions.md R260); E14 is a HOST report. -/
inductive ErrorEvent where
  | bqFull
  | lineOverflow
  | lineNoise
  | rqFull
  | hexError
  | lengthError
  | checksumFail
  | recordOther
  | outOfRegion
  | unhandledAlignment
  | mergeLost
  | storageFail
  | rxLost
deriving DecidableEq, Repr

/-- Why the state-wide refusal mark is set: the inputs the spec refuses (spec/93_implementation_defined.md 1.4). -/
inductive RefuseReason where
  /-- a trace step with an unused operation code (spec/30_encoding.md R106) -/
  | unusedCode (code : BitVec 5)
  /-- a trace step whose operand byte its operation has no field for (log 5) -/
  | badOperand (code : BitVec 5) (arg : Byte)
  /-- `sc_done` with no command outstanding (spec/44_storage.md R233) -/
  | unsolicitedDone
  /-- `ctl_erase_region()` while `cons_state` is not `C_OFF` (spec/44_storage.md R240) -/
  | eraseRegionNotOff
  /-- a read of `STOR` while a command is outstanding (spec/44_storage.md R244) -/
  | storageReadBusy
deriving DecidableEq, Repr

/-- An output transaction (spec/10_state.md R21). -/
inductive Output where
  | scCmd (op : StorageOp) (addr : Addr) (data : Phrase)
  | eraseDone (status : Status)
  | transferDone
deriving DecidableEq, Repr

/-- The output ports: every transaction emitted, oldest first, and those the HOST has not taken yet, which
spec/60_exceptions.md R282 (`erase_done`) and R283 (`transfer_done`) wait for (log 8). -/
structure Ports where
  emitted : List Output
  eraseDone : Option Status
  transferDone : Nat
deriving DecidableEq, Repr

/-- `host_state` (spec/10_state.md R45). -/
inductive HostState where
  | init
  | decide
  | erase
  | loop
  | jump
  | idle
  | app
deriving DecidableEq, Repr

/-- A report on the status channel (spec/60_exceptions.md R291). -/
inductive Report where
  | ready (status : Status)
  | done
  | imageInvalid
deriving DecidableEq, Repr

/-- The transfer of control of spec/60_exceptions.md R285: vector-table base, stack pointer, entry point. -/
structure Handoff where
  vectorBase : Addr
  stackPointer : Word32
  entryPoint : Word32
deriving DecidableEq, Repr

/-- The HOST: `host_state`, `h_phase`, `h_report`, the `boot_sel` level, and the jump once taken
(spec/10_state.md R45, spec/60_exceptions.md R285). -/
structure HostAgent where
  state : HostState
  phase : Fin 4
  report : List Report
  bootSel : Bool
  handoff : Option Handoff
deriving DecidableEq, Repr

/-- What the HOST has read, oldest first (log 8): a status register (spec/10_state.md R47) or a storage byte
(spec/60_exceptions.md R294). -/
inductive HostRead where
  | csr (i : Byte) (value : Word32)
  | stor (a : Addr) (value : Byte)
deriving DecidableEq, Repr

/-- One entry of the schedule: which agent moves next, or what the environment does (log 4). -/
inductive Event where
  /-- a trace step: the operation it names (spec/30_encoding.md R106) -/
  | trace (code : BitVec 5) (arg : Byte)
  /-- CONS takes the record line at the head of the Record Queue (spec/41_line_assembler.md R158) -/
  | record
  /-- the input `rx_byte(b)`: a byte arrives (spec/10_state.md R20) -/
  | rxByte (b : Byte)
  /-- the HOST takes its next step (spec/60_exceptions.md R280 to R287) -/
  | hostStep
  /-- the HOST reads status register `i` (spec/10_state.md R47) -/
  | csrRead (i : Byte)
  /-- the HOST reads a storage byte (spec/60_exceptions.md R294) -/
  | storRead (a : Addr)
  /-- the environment sets the boot selector's level (spec/60_exceptions.md R294) -/
  | bootSel (level : Bool)
  /-- an external reset (spec/70_reset_and_hazards.md R301); the next launch finds the selector at `level`, which the
  environment chooses (spec/10_state.md R48) -/
  | externalReset (level : Bool)
deriving DecidableEq, Repr

/-- `STOR` as the bytes that differ from what an unlisted address reads as, in rising address order. -/
abbrev Memory := List Host.Cell

/-- The whole state. -/
structure State where
  /-- the parameters, which no step writes (spec/00_scope.md R9, spec/10_state.md R25) -/
  cfg : Config
  bq : ByteQueue
  /-- `rx_hold` (spec/10_state.md R38) -/
  rxHold : List Byte
  la : LineAssembler
  /-- `rq`, oldest line first (spec/10_state.md R30) -/
  rq : List (List Byte)
  pm : PendingMerge
  we : Cursor
  sc : StoragePort
  cons : ConsControl
  cnt : Counters
  /-- `last_err` (spec/10_state.md R41) -/
  lastErr : Byte
  /-- `faults`: whether `F_NO_RAM_ROUTINE`, its one possible member, is in it (spec/10_state.md R42) -/
  faultNoRam : Bool
  /-- `refused` (spec/10_state.md R42) -/
  refused : Option RefuseReason
  /-- `STOR` (spec/10_state.md R44) -/
  stor : Memory
  /-- the model's own: what `STOR` held before each command completed in this launch, newest first, which a stale HOST
  read may still see (spec/20_memory.md R84, log 15) -/
  past : List Memory
  host : HostAgent
  /-- the output ports (spec/10_state.md R21) -/
  ports : Ports
  /-- the model's own: what the HOST has read -/
  reads : List HostRead
  /-- the model's own: how many free choices have been made, bytes drawn (log 6) and storage bytes read by the HOST
  (log 15) -/
  draws : Nat
  /-- the model's own: the schedule of steps still to take (log 4) -/
  sched : List Event
deriving DecidableEq, Repr

/-- The reasons a step stops with a fault: none. The block has no trap mechanism, and nothing it detects stops the
machine (spec/60_exceptions.md R260); its one fault, F_NO_RAM_ROUTINE, is a sticky bit of the state
(spec/44_storage.md R230, `State.faultNoRam`). Safe. -/
inductive Fault where
deriving DecidableEq, Repr

/-- The reasons a step is refused outright. -/
inductive Refusal where
  /-- An instruction without a meaning yet. No arm answers it. Safe. -/
  | notModelled (mnemonic : String)
  /-- Raised by `step` before any agent moves: the configuration breaks spec/00_scope.md R10, and "A model refuses
  any other configuration". Safe. -/
  | illFormedConfiguration
deriving DecidableEq, Repr

/-- All bytes zero: the value of a half at reset where the spec gives none (log 2). -/
def halfZero : Half := ⟨0, 0, 0, 0⟩

/-- Every counter at 0 (spec/10_state.md R48). -/
def Counters.zero : Counters :=
  ⟨0, 0, 0, 0, 0, 0, 0, 0, 0, 0, 0, 0, 0, 0, 0, 0, 0, 0⟩

/-- The power-on state for a configuration, a boot selector level and a storage content: the power-on column of
spec/10_state.md R48 (R300). `draws` and `sched` are the model's own. A register R48 gives no value is 0 (log 2).
Nothing but the storage outlives a reset (R301), so a HOST read sees no older content after it (log 15). -/
def State.powerOn (cfg : Config) (bootSel : Bool) (stor : Memory) (draws : Nat) (sched : List Event) : State where
  cfg := cfg
  bq := { mem := List.replicate cfg.bqCap 0, wr := 0, rd := 0, rdSeen := 0, wrSeen := 0 }
  rxHold := []
  la := { buf := [], skip := false }
  rq := []
  pm := { valid := false, base := 0, low4 := halfZero }
  we := { addr := 0, data := [] }
  sc := { busy := false, op := .program8, addr := 0, data := ⟨halfZero, halfZero⟩, ramReady := false
          fail := false, eraseIdx := 0, eraseFail := false }
  cons := { state := .off, waitRet := .we, runEnabled := false }
  cnt := Counters.zero
  lastErr := 0
  faultNoRam := false
  refused := none
  stor := stor
  past := []
  host := { state := .init, phase := 0, report := [], bootSel := bootSel, handoff := none }
  ports := { emitted := [], eraseDone := none, transferDone := 0 }
  reads := []
  draws := draws
  sched := sched

/-- The machine right after reset: power-on under CFG0, the boot selector asserted, storage erased, nothing
scheduled (logs 1, 2, 3, 4). -/
def State.reset : State := State.powerOn Config.cfg0 true [] 0 []

end Sys2Proof.Machine
end

