-- ==== Sys2Proof/Machine/Operands.lean ====
section
/-! DEFINITION. The operand forms: hex text to bytes (spec/42_record_parser.md R176), the big-endian address
(R172), the halves and phrases the Write Engine takes from a record's payload (spec/43_write_engine.md), and the
32-bit image words the HOST reads (spec/60_exceptions.md R284). -/

namespace Sys2Proof.Machine

/-- HEXDIG (R176): the nibble of a hex character of either case; a character outside `[0-9A-Fa-f]` is an error
(`none`) in mode `reject` and the nibble 0 in mode `zero_substitute` (R177). -/
def hexDigit (mode : HexErrorMode) (c : Byte) : Option (BitVec 4) :=
  if 0x30 ≤ c.toNat ∧ c.toNat ≤ 0x39 then some (BitVec.ofNat 4 (c.toNat - 0x30))
  else if 0x41 ≤ c.toNat ∧ c.toNat ≤ 0x46 then some (BitVec.ofNat 4 (c.toNat - 0x37))
  else if 0x61 ≤ c.toNat ∧ c.toNat ≤ 0x66 then some (BitVec.ofNat 4 (c.toNat - 0x57))
  else match mode with
    | .reject => none
    | .zeroSubstitute => some 0

/-- HEXPAIR (R176): the byte `16·v0 + v1`, the first character the high nibble. -/
def hexPair (mode : HexErrorMode) (c0 c1 : Byte) : Option Byte :=
  match hexDigit mode c0, hexDigit mode c1 with
  | some v0, some v1 => some (BitVec.ofNat 8 (16 * v0.toNat + v1.toNat))
  | _, _ => none

/-- The first `n` hex pairs of a text, or `none` if one of them is in error or missing. -/
def hexBytes (mode : HexErrorMode) : Nat → List Byte → Option (List Byte)
  | 0, _ => some []
  | n + 1, c0 :: c1 :: rest =>
    match hexPair mode c0 c1, hexBytes mode n rest with
    | some b, some bs => some (b :: bs)
    | _, _ => none
  | _ + 1, _ => none

/-- The natural-number sum of a list of bytes (spec/00_scope.md R12). -/
def byteSum (bs : List Byte) : Nat := (bs.map BitVec.toNat).sum

/-- The number a list of bytes writes, most significant byte first (R172). -/
def bigEndian (bs : List Byte) : Nat := bs.foldl (fun acc b => acc * 256 + b.toNat) 0

/-- `AW`: the address width in bytes of each kind (spec/30_encoding.md R93). -/
def addrWidth : Kind → Nat
  | .data16 => 2
  | .data24 => 3
  | .data32 => 4
  | .end32 => 4
  | .end24 => 3
  | .end16 => 2
  | .other => 0

/-- The data kinds (R93). -/
def isData : Kind → Bool
  | .data16 | .data24 | .data32 => true
  | .end32 | .end24 | .end16 | .other => false

/-- The end-of-transfer kinds (R93). -/
def isEnd : Kind → Bool
  | .end32 | .end24 | .end16 => true
  | .data16 | .data24 | .data32 | .other => false

/-- Half of a phrase that is all `ERASED_BYTE` (spec/44_storage.md R245). -/
def erasedHalf : Half :=
  ⟨Config.erasedByte, Config.erasedByte, Config.erasedByte, Config.erasedByte⟩

/-- `repeat(0xFF, 8)`, the data sent with an ERASE_SECTOR (spec/10_state.md R21). -/
def erasedPhrase : Phrase := ⟨erasedHalf, erasedHalf⟩

/-- `bs[0..4)`. The Write Engine takes it only when four bytes are there. -/
def firstHalf (bs : List Byte) : Half :=
  ⟨bs.getD 0 0, bs.getD 1 0, bs.getD 2 0, bs.getD 3 0⟩

/-- `bs[0..8)`. The Write Engine takes it only when eight bytes are there. -/
def firstPhrase (bs : List Byte) : Phrase := ⟨firstHalf bs, firstHalf (bs.drop 4)⟩

/-- A half's bytes in address order. -/
def halfBytes (h : Half) : List Byte := [h.b0, h.b1, h.b2, h.b3]

/-- A phrase's bytes in address order: `data[i]` is element `i` (spec/20_memory.md R65). -/
def phraseBytes (p : Phrase) : List Byte := halfBytes p.lo ++ halfBytes p.hi

/-- A half as a 32-bit register, its first byte in bits 7:0 (register PM_LOW4, spec/10_state.md R47). -/
def halfWord (h : Half) : Word32 := h.b3 ++ h.b2 ++ h.b1 ++ h.b0

/-- Command field `data` as 64 bits: `data[i]` in bits `8i+7 : 8i` (spec/30_encoding.md R107). -/
def phraseWord (p : Phrase) : BitVec 64 := halfWord p.hi ++ halfWord p.lo

/-- Command field `op`: 0 = PROGRAM8, 1 = ERASE_SECTOR (spec/30_encoding.md R107). -/
def StorageOp.bit : StorageOp → BitVec 1
  | .program8 => 0
  | .eraseSector => 1

/-- The value the controller's opcode register takes for a command: a parameter, OPEN (spec/44_storage.md R237). -/
def opcodeValue (cfg : Config) : StorageOp → Nat
  | .program8 => cfg.scOpcProgram8
  | .eraseSector => cfg.scOpcErase

/-- Four bytes at rising addresses as a 32-bit word in the given order (spec/60_exceptions.md R284). -/
def wordOf (order : WordOrder) (h : Half) : Word32 :=
  match order with
  | .littleEndian => h.b3 ++ h.b2 ++ h.b1 ++ h.b0
  | .bigEndian => h.b0 ++ h.b1 ++ h.b2 ++ h.b3

end Sys2Proof.Machine
end

