-- ==== Sys2Proof/Machine/Flags.lean ====
section
/-! DEFINITION. Every derived flag and status value: Byte Queue occupancy and each side's view of it
(spec/10_state.md R26, R28), the receive interrupt's enable and mask (spec/60_exceptions.md R276), which CONS path is
open (spec/41_line_assembler.md R156), the Write Engine's case selector (spec/30_encoding.md R108), the window test
(spec/43_write_engine.md R208), and the status register set (spec/10_state.md R47). -/

namespace Sys2Proof.Machine

/-- `(wr − rd) mod (2·cap)`, the non-negative remainder (spec/10_state.md R26, spec/00_scope.md R11). -/
def occupancy (cap wr rd : Nat) : Nat := (wr + (2 * cap - rd % (2 * cap))) % (2 * cap)

/-- `bq_count` (spec/10_state.md R26). -/
def State.bqCount (s : State) : Nat := occupancy s.cfg.bqCap s.bq.wr s.bq.rd

/-- `bq_rd_seen` as the rules read it: `bq_rd` itself unless `BQ_STALE_VIEW` (spec/10_state.md R28). -/
def State.rdView (s : State) : Nat := if s.cfg.bqStaleView then s.bq.rdSeen else s.bq.rd

/-- `bq_wr_seen` as the rules read it: `bq_wr` itself unless `BQ_STALE_VIEW` (spec/10_state.md R28). -/
def State.wrView (s : State) : Nat := if s.cfg.bqStaleView then s.bq.wrSeen else s.bq.wr

/-- The occupancy RX sees (spec/40_byte_queue.md R130). -/
def State.seenByRx (s : State) : Nat := occupancy s.cfg.bqCap s.bq.wr s.rdView

/-- The occupancy CONS sees (spec/40_byte_queue.md R133). -/
def State.seenByCons (s : State) : Nat := occupancy s.cfg.bqCap s.wrView s.bq.rd

/-- An index one on, modulo `2·BQ_CAP` (spec/10_state.md R26). -/
def nextIndex (cap i : Nat) : Nat := (i + 1) % (2 * cap)

/-- `bq_mem[bq_rd mod BQ_CAP]`, the oldest byte. -/
def State.headByte (s : State) : Byte := s.bq.mem.getD (s.bq.rd % s.cfg.bqCap) 0

/-- `rx_armed`: `host_state ∉ {H_INIT, H_APP}` (spec/40_byte_queue.md). -/
abbrev State.rxArmed (s : State) : Prop := s.host.state ≠ .init ∧ s.host.state ≠ .app

/-- `rx_masked = sc_busy` (spec/10_state.md R38). -/
abbrev State.rxMasked (s : State) : Prop := s.sc.busy = true

/-- In `H_APP` no step of the ULFR is enabled except SC_DONE (spec/60_exceptions.md R285). -/
abbrev State.running (s : State) : Prop := s.host.state ≠ .app

/-- The byte path is open: BQ_POP is enabled (spec/40_byte_queue.md R133, spec/41_line_assembler.md R156). -/
abbrev State.bytePath (s : State) : Prop :=
  s.running ∧ s.cons.state = .idle ∧ 0 < s.seenByCons ∧ (s.cfg.consOrder = .linesFirst → s.rq = [])

/-- The line path is open: RQ_POP is enabled (spec/41_line_assembler.md R158, R156). -/
abbrev State.linePath (s : State) : Prop :=
  s.running ∧ s.cons.state = .idle ∧ s.rq ≠ [] ∧ (s.cfg.consOrder = .bytesFirst → s.seenByCons = 0)

/-- The Line Assembler operation a byte selects (spec/41_line_assembler.md R150). -/
inductive LineOp where
  | append
  | overflow
  | eolEmit
  | eolNoise
deriving DecidableEq, Repr

/-- `looks_like_record(line)` (spec/41_line_assembler.md R155). -/
def looksLikeRecord (cfg : Config) (line : List Byte) : Bool := decide (line.head? = some cfg.marker)

/-- LA_BYTE's choice (spec/41_line_assembler.md R150). -/
def lineOp (cfg : Config) (la : LineAssembler) (b : Byte) : LineOp :=
  if b = cfg.newline then
    if la.skip = false ∧ looksLikeRecord cfg la.buf = true then .eolEmit else .eolNoise
  else if la.skip = true ∨ la.buf.length = cfg.lineMax then .overflow
  else .append

/-- The Write Engine's cases (spec/30_encoding.md R108). -/
inductive WriteCase where
  | caseA
  | caseB
  | caseC
  | skip
deriving DecidableEq, Repr

/-- The case selector: `we_addr[2:0]` and the class of `rem` (R108), in the source's priority order
(spec/43_write_engine.md R203). It is read only while `rem > 0`. -/
def writeCase (addr : Addr) (rem : Nat) : WriteCase :=
  if addr.toNat % 8 = 0 ∧ rem = 4 then .caseA
  else if addr.toNat % 8 = 4 ∧ 4 ≤ rem then .caseB
  else if addr.toNat % 8 = 0 ∧ 8 ≤ rem then .caseC
  else .skip

/-- The Write Engine is at work on a record with bytes left, and the selector gives this case
(spec/43_write_engine.md R203). -/
abbrev State.weCase (s : State) (c : WriteCase) : Prop :=
  s.running ∧ s.cons.state = .we ∧ s.we.data ≠ [] ∧ writeCase s.we.addr s.we.data.length = c

/-- The window test of a phrase, in naturals (spec/43_write_engine.md R208). -/
def phraseInWindow (cfg : Config) (base : Addr) : Bool :=
  decide (cfg.regionStart.toNat ≤ base.toNat) &&
  decide (base.toNat + 8 ≤ cfg.regionStart.toNat + cfg.regionLen.toNat)

/-- `REGION_LEN / SECTOR_SIZE`, the number of sectors to erase (spec/44_storage.md R241). -/
def sectorCount (cfg : Config) : Nat := cfg.regionLen.toNat / cfg.sectorSize

/-- `APP_BASE = REGION_START` (spec/00_scope.md R9). -/
def appBase (cfg : Config) : Addr := cfg.regionStart

/-- The code of `cons_state` in `STATUS.CONS_STATE` (spec/10_state.md R40). -/
def ConsState.code : ConsState → Nat
  | .off => 0
  | .idle => 1
  | .we => 2
  | .wait => 3
  | .erase => 4
  | .fault => 5

/-- The hardware command register set "(opcode, address, data)", with the command's own field `op`
(spec/30_encoding.md R107, spec/44_storage.md R237). -/
structure CommandRegisters where
  op : BitVec 1
  opcode : Nat
  addr : Addr
  data : BitVec 64
deriving DecidableEq, Repr

/-- The command register set as the last command issued left it (spec/44_storage.md R237). -/
def State.commandRegisters (s : State) : CommandRegisters where
  op := s.sc.op.bit
  opcode := opcodeValue s.cfg s.sc.op
  addr := s.sc.addr
  data := phraseWord s.sc.data

/-- Bit `k` of a register. -/
def bitAt (k : Nat) (b : Bool) : Word32 := if b then BitVec.ofNat 32 (2 ^ k) else 0

/-- Register STATUS (spec/10_state.md R47). -/
def State.statusWord (s : State) : Word32 :=
  bitAt 0 s.pm.valid ||| bitAt 1 s.sc.busy ||| bitAt 2 s.sc.fail ||| bitAt 3 (decide (s.bqCount = 0)) |||
  bitAt 4 (decide (s.bqCount = s.cfg.bqCap)) ||| bitAt 5 (decide (s.rq.length = 0)) |||
  bitAt 6 (decide (s.rq.length = s.cfg.rqCap)) ||| bitAt 7 s.sc.ramReady |||
  (BitVec.ofNat 32 s.cons.state.code <<< 8) ||| bitAt 11 s.faultNoRam

/-- `csr_read(i)` (spec/10_state.md R47): every register shows live state; an index not in the table reads 0. -/
def State.csr (s : State) (i : Byte) : Word32 :=
  match i.toNat with
  | 0x00 => s.statusWord
  | 0x01 => BitVec.ofNat 32 s.bqCount
  | 0x02 => BitVec.ofNat 32 s.rq.length
  | 0x03 => BitVec.ofNat 32 s.la.buf.length
  | 0x04 => s.lastErr.setWidth 32
  | 0x05 => if s.pm.valid then s.pm.base else 0
  | 0x06 => if s.pm.valid then halfWord s.pm.low4 else 0
  | 0x07 => bitAt 0 s.faultNoRam
  | 0x08 => s.cfg.regionStart
  | 0x09 => s.cfg.regionLen
  | 0x10 => BitVec.ofNat 32 s.cnt.bqDrop
  | 0x11 => BitVec.ofNat 32 s.cnt.lineOverflow
  | 0x12 => BitVec.ofNat 32 s.cnt.lineNoise
  | 0x13 => BitVec.ofNat 32 s.cnt.rqDrop
  | 0x14 => BitVec.ofNat 32 s.cnt.hexErr
  | 0x15 => BitVec.ofNat 32 s.cnt.lenErr
  | 0x16 => BitVec.ofNat 32 s.cnt.cksumFail
  | 0x17 => BitVec.ofNat 32 s.cnt.recOther
  | 0x18 => BitVec.ofNat 32 s.cnt.outOfRegion
  | 0x19 => BitVec.ofNat 32 s.cnt.bytesUnhandled
  | 0x1A => BitVec.ofNat 32 s.cnt.mergeLost
  | 0x1B => BitVec.ofNat 32 s.cnt.storageFail
  | 0x1C => BitVec.ofNat 32 s.cnt.rxLost
  | 0x1D => BitVec.ofNat 32 s.cnt.lines
  | 0x1E => BitVec.ofNat 32 s.cnt.dataRec
  | 0x1F => BitVec.ofNat 32 s.cnt.endRec
  | 0x20 => BitVec.ofNat 32 s.cnt.prog
  | 0x21 => BitVec.ofNat 32 s.cnt.erase
  | _ => 0

end Sys2Proof.Machine
end

