-- ==== Sys2Proof/Machine/Ops.lean ====
section
/-! DEFINITION. The named operations shared by the meanings: reading and writing the storage array in its canonical
form, the saturating counters, raising an error event (the ULFR's one form of exception: it records and goes on,
spec/60_exceptions.md R260), emitting on an output port, setting the refusal mark, and taking a step only where it
is enabled. -/

namespace Sys2Proof.Machine

/-- What an address nothing lists reads as: `ERASED_BYTE` (log 1). -/
def Memory.unlisted : Byte := Config.erasedByte

/-- The byte at a storage address. -/
def Memory.read : Memory → Nat → Byte
  | [], _ => Memory.unlisted
  | (k, v) :: m, a => if a = k then v else Memory.read m a

/-- Writing one byte. The canonical form is kept: addresses rise strictly, and no entry holds what an unlisted
address reads as. -/
def Memory.write : Memory → Nat → Byte → Memory
  | [], a, v => if v = Memory.unlisted then [] else [(a, v)]
  | (k, w) :: m, a, v =>
    if a < k then (if v = Memory.unlisted then (k, w) :: m else (a, v) :: (k, w) :: m)
    else if a = k then (if v = Memory.unlisted then m else (a, v) :: m)
    else (k, w) :: Memory.write m a v

/-- Writing bytes at rising addresses from `a`, modulo 2^32 (spec/20_memory.md R61, R65). -/
def Memory.writeBytes : Memory → Addr → List Byte → Memory
  | m, _, [] => m
  | m, a, b :: bs => Memory.writeBytes (Memory.write m a.toNat b) (a + 1) bs

/-- Whether the address `k` is one of the `n` addresses from `a`, modulo 2^32. -/
def inRange (a : Addr) (n k : Nat) : Bool := decide ((BitVec.ofNat 32 k - a).toNat < n)

/-- Setting the `n` bytes from `a` to `ERASED_BYTE`: they are then unlisted. -/
def Memory.eraseRange (m : Memory) (a : Addr) (n : Nat) : Memory :=
  m.filter fun c => !inRange a n c.1

/-- The canonical form: addresses strictly rising and below 2^32, no entry equal to what an unlisted address
reads as. -/
def Memory.wf (m : Memory) : Bool :=
  decide (m.Pairwise fun x y => x.1 < y.1) &&
  m.all fun c => decide (c.1 < 2 ^ 32) && decide (c.2 ≠ Memory.unlisted)

/-- `MemRead(a, 1)` of the storage array (spec/00_scope.md R13). -/
def State.storByte (s : State) (a : Addr) : Byte := s.stor.read a.toNat

/-- The content that the HOST's `k`-th storage read from here sees: the array as it stands, or what it held before a
command of this launch; which of them is a free choice (spec/20_memory.md R84, log 15). With no command completed since
the reset there is only the one. -/
def State.readSource (s : State) (k : Nat) : Memory :=
  match s.past with
  | [] => s.stor
  | older => (s.stor :: older).getD (Config.readAge (s.draws + k)) s.stor

/-- The byte at `a` as the HOST's `k`-th storage read from here sees it. -/
def State.readByte (s : State) (k : Nat) (a : Addr) : Byte := (s.readSource k).read a.toNat

/-- Four bytes at rising addresses, each read by the HOST on its own, from its `k`-th read on. -/
def State.readHalf (s : State) (k : Nat) (a : Addr) : Half :=
  ⟨s.readByte k a, s.readByte (k + 1) (a + 1), s.readByte (k + 2) (a + 2), s.readByte (k + 3) (a + 3)⟩

/-- `n` bytes drawn under no law, from the `k`-th draw of the run on (spec/44_storage.md R235, log 6). -/
def drawBytes (k n : Nat) : List Byte := (List.range n).map fun i => Config.drawByte (k + i)

/-- The target bytes of a storage command become draws (spec/44_storage.md R235). -/
def State.drawStorage (s : State) (a : Addr) (n : Nat) : State :=
  { s with stor := s.stor.writeBytes a (drawBytes s.draws n), draws := s.draws + n }

/-- `sat_add(c, k) = min(c + k, 2^CNT_BITS − 1)`; `sat_inc(c)` is `sat_add(c, 1)` (spec/00_scope.md R11). -/
def satAdd (cfg : Config) (c k : Nat) : Nat := min (c + k) (2 ^ cfg.cntBits - 1)

/-- Reading a counter by name. -/
def Counters.get (c : Counters) : CounterId → Nat
  | .bqDrop => c.bqDrop
  | .lineOverflow => c.lineOverflow
  | .lineNoise => c.lineNoise
  | .rqDrop => c.rqDrop
  | .hexErr => c.hexErr
  | .lenErr => c.lenErr
  | .cksumFail => c.cksumFail
  | .recOther => c.recOther
  | .outOfRegion => c.outOfRegion
  | .bytesUnhandled => c.bytesUnhandled
  | .mergeLost => c.mergeLost
  | .storageFail => c.storageFail
  | .rxLost => c.rxLost
  | .lines => c.lines
  | .dataRec => c.dataRec
  | .endRec => c.endRec
  | .prog => c.prog
  | .erase => c.erase

/-- Writing a counter by name. -/
def Counters.set (c : Counters) (id : CounterId) (v : Nat) : Counters :=
  match id with
  | .bqDrop => { c with bqDrop := v }
  | .lineOverflow => { c with lineOverflow := v }
  | .lineNoise => { c with lineNoise := v }
  | .rqDrop => { c with rqDrop := v }
  | .hexErr => { c with hexErr := v }
  | .lenErr => { c with lenErr := v }
  | .cksumFail => { c with cksumFail := v }
  | .recOther => { c with recOther := v }
  | .outOfRegion => { c with outOfRegion := v }
  | .bytesUnhandled => { c with bytesUnhandled := v }
  | .mergeLost => { c with mergeLost := v }
  | .storageFail => { c with storageFail := v }
  | .rxLost => { c with rxLost := v }
  | .lines => { c with lines := v }
  | .dataRec => { c with dataRec := v }
  | .endRec => { c with endRec := v }
  | .prog => { c with prog := v }
  | .erase => { c with erase := v }

/-- Counting `k` more of something, saturating (R11). -/
def State.countBy (s : State) (id : CounterId) (k : Nat) : State :=
  { s with cnt := s.cnt.set id (satAdd s.cfg (s.cnt.get id) k) }

/-- `cnt <- sat_inc(cnt)` (R11). -/
def State.count (s : State) (id : CounterId) : State := s.countBy id 1

/-- The code of an event (spec/60_exceptions.md R260). -/
def ErrorEvent.code : ErrorEvent → Byte
  | .bqFull => 1
  | .lineOverflow => 2
  | .lineNoise => 3
  | .rqFull => 4
  | .hexError => 5
  | .lengthError => 6
  | .checksumFail => 7
  | .recordOther => 8
  | .outOfRegion => 9
  | .unhandledAlignment => 10
  | .mergeLost => 11
  | .storageFail => 12
  | .rxLost => 13

/-- The notes: events that do not write `last_err` (R260; codes 3 and 8). -/
def ErrorEvent.isNote : ErrorEvent → Bool
  | .lineNoise | .recordOther => true
  | .bqFull | .lineOverflow | .rqFull | .hexError | .lengthError | .checksumFail | .outOfRegion
  | .unhandledAlignment | .mergeLost | .storageFail | .rxLost => false

/-- The counter of an event (R260). -/
def ErrorEvent.counter : ErrorEvent → CounterId
  | .bqFull => .bqDrop
  | .lineOverflow => .lineOverflow
  | .lineNoise => .lineNoise
  | .rqFull => .rqDrop
  | .hexError => .hexErr
  | .lengthError => .lenErr
  | .checksumFail => .cksumFail
  | .recordOther => .recOther
  | .outOfRegion => .outOfRegion
  | .unhandledAlignment => .bytesUnhandled
  | .mergeLost => .mergeLost
  | .storageFail => .storageFail
  | .rxLost => .rxLost

/-- Raising an event (R260): its counter goes up by `k` (1, or the byte count of E10), and an error, not a note,
writes its code to `last_err`. It saves nothing else, changes no control state, and there is no return from it. -/
def State.raiseBy (s : State) (e : ErrorEvent) (k : Nat) : State :=
  { s.countBy e.counter k with lastErr := if e.isNote then s.lastErr else e.code }

/-- Raising an event that counts one occurrence (R260). -/
def State.raise (s : State) (e : ErrorEvent) : State := s.raiseBy e 1

/-- `refuse R` (spec/00_scope.md R13): the refusal mark is set with its reason and nothing else happens (log 9). -/
def State.refuse (s : State) (r : RefuseReason) : State := { s with refused := some r }

/-- `emit sc_cmd(op, addr, data)` (spec/10_state.md R21). -/
def State.emitCommand (s : State) (op : StorageOp) (addr : Addr) (data : Phrase) : State :=
  { s with ports := { s.ports with emitted := s.ports.emitted ++ [.scCmd op addr data] } }

/-- `emit erase_done(status)`: it stays for the HOST to take (spec/44_storage.md R242). If an earlier one is still there,
from an erase that was started apart from the HOST's own steps, the newest status replaces it; the spec is silent, and
that is log 8's choice. -/
def State.emitEraseDone (s : State) (st : Status) : State :=
  { s with ports := { s.ports with emitted := s.ports.emitted ++ [.eraseDone st], eraseDone := some st } }

/-- `emit transfer_done()`: one more for the HOST to take (spec/60_exceptions.md R283). -/
def State.emitTransferDone (s : State) : State :=
  { s with ports := { s.ports with
      emitted := s.ports.emitted ++ [.transferDone], transferDone := s.ports.transferDone + 1 } }

/-- A scheduled step: where it is enabled it has its effect `t`; where it is not, it is no step of any agent and
nothing changes (spec/60_exceptions.md R294 "otherwise has no move"; log 7). -/
def attempt (enabled : Prop) [Decidable enabled] (s t : State) : Host.Outcome State Fault Refusal :=
  .next (if enabled then t else s)

end Sys2Proof.Machine
end

