-- ==== Sys2Proof/Machine/ByteQueue.lean ====
section
/-! DEFINITION. The receive side of the Byte Queue (spec/40_byte_queue.md): BQ_PUSH, RX_HOLD, RX_RELEASE, BQ_SYNC,
and the slot read that BQ_POP begins with. BQ_POP itself goes on into the Line Assembler, in LineAssembler.lean. -/

namespace Sys2Proof.Machine

/-- The body of BQ_PUSH (R130): store `b`, or drop it with E1 if the queue is full as RX sees it. -/
def State.pushByte (s : State) (b : Byte) : State :=
  if s.seenByRx = s.cfg.bqCap then s.raise .bqFull
  else { s with bq := { s.bq with
      mem := s.bq.mem.set (s.bq.wr % s.cfg.bqCap) b, wr := nextIndex s.cfg.bqCap s.bq.wr } }

/-- The body of RX_HOLD (R132): the receiver keeps `b`, or loses it with E13. -/
def State.holdByte (s : State) (b : Byte) : State :=
  if s.rxHold.length < s.cfg.rxHoldDepth then { s with rxHold := s.rxHold ++ [b] }
  else s.raise .rxLost

/-- The first half of BQ_POP (R133): the read index moves on; the byte is `State.headByte`. -/
def State.takeByte (s : State) : State :=
  { s with bq := { s.bq with rd := nextIndex s.cfg.bqCap s.bq.rd } }

/-- BQ_PUSH, R130: enabled when a byte arrives with RX armed, not masked and nothing held. -/
def execBqPush (b : Byte) (s : State) : Host.Outcome State Fault Refusal :=
  attempt (s.rxArmed ∧ ¬ s.rxMasked ∧ s.rxHold = []) s (s.pushByte b)

/-- RX_HOLD, R132: enabled when a byte arrives with RX armed and either masked or behind held bytes. -/
def execRxHold (b : Byte) (s : State) : Host.Outcome State Fault Refusal :=
  attempt (s.rxArmed ∧ (s.rxMasked ∨ s.rxHold ≠ [])) s (s.holdByte b)

/-- RX_RELEASE, R136: once RX is unmasked, the oldest held byte goes through BQ_PUSH, with its full check. -/
def execRxRelease (s : State) : Host.Outcome State Fault Refusal :=
  attempt (s.running ∧ ¬ s.rxMasked ∧ s.rxHold ≠ []) s
    ({ s with rxHold := s.rxHold.tail }.pushByte (s.rxHold.headD 0))

/-- BQ_SYNC, R135: one side's copy of the other side's index is refreshed; only when `BQ_STALE_VIEW`. -/
def execBqSync (side : Side) (s : State) : Host.Outcome State Fault Refusal :=
  attempt (s.running ∧ s.cfg.bqStaleView = true ∧ (s.bq.rdSeen ≠ s.bq.rd ∨ s.bq.wrSeen ≠ s.bq.wr)) s
    (match side with
     | .readCopy => { s with bq := { s.bq with rdSeen := s.bq.rd } }
     | .writeCopy => { s with bq := { s.bq with wrSeen := s.bq.wr } })

end Sys2Proof.Machine
end

