-- ==== Sys2Proof/Machine/LineAssembler.lean ====
section
/-! DEFINITION. The Line Assembler and the push side of the Record Queue (spec/41_line_assembler.md). The operations
of R151 to R154 and R157 are parts of a BQ_POP step and never steps by themselves (R150), so each of their meanings
is the whole BQ_POP step that selects it, and no move where BQ_POP would select another (log 7). -/

namespace Sys2Proof.Machine

/-- The body of RQ_PUSH (R157): append a complete line, or drop it with E4 if the queue is full. -/
def State.pushLine (s : State) (line : List Byte) : State :=
  if s.rq.length = s.cfg.rqCap then s.raise .rqFull
  else { s with rq := s.rq ++ [line] }.count .lines

/-- The body of LA_APPEND (R151). -/
def State.laAppend (s : State) (b : Byte) : State := { s with la := { s.la with buf := s.la.buf ++ [b] } }

/-- The body of LA_OVERFLOW (R152): the byte is discarded; the first byte past `LINE_MAX` resets the buffer, raises
E2 and, in mode `discard_to_newline`, starts the skip. -/
def State.laOverflow (s : State) : State :=
  if s.la.skip then s
  else { s with la := { buf := [], skip := decide (s.cfg.overflowMode = OverflowMode.discardToNewline) } }.raise .lineOverflow

/-- The body of LA_EOL_EMIT (R153): the line goes to RQ_PUSH in the same step. -/
def State.laEolEmit (s : State) : State := { s with la := { s.la with buf := [] } }.pushLine s.la.buf

/-- The body of LA_EOL_NOISE (R154): the end of a skip, or note E3. -/
def State.laEolNoise (s : State) : State :=
  if s.la.skip then { s with la := { buf := [], skip := false } }
  else { s with la := { s.la with buf := [] } }.raise .lineNoise

/-- LA_BYTE (R150): exactly one Line Assembler operation for a byte. -/
def State.laByte (s : State) (b : Byte) : State :=
  match lineOp s.cfg s.la b with
  | .append => s.laAppend b
  | .overflow => s.laOverflow
  | .eolEmit => s.laEolEmit
  | .eolNoise => s.laEolNoise

/-- The operation the oldest queued byte selects. -/
def State.headLineOp (s : State) : LineOp := lineOp s.cfg s.la s.headByte

/-- BQ_POP, spec/40_byte_queue.md R133: take the oldest byte and feed it to the Line Assembler in the same step. -/
def execBqPop (s : State) : Host.Outcome State Fault Refusal :=
  attempt s.bytePath s (s.takeByte.laByte s.headByte)

/-- LA_APPEND, R151: the BQ_POP step whose byte is added to the line. -/
def execLaAppend (s : State) : Host.Outcome State Fault Refusal :=
  attempt (s.bytePath ∧ s.headLineOp = .append) s (s.takeByte.laAppend s.headByte)

/-- LA_OVERFLOW, R152: the BQ_POP step whose byte overruns the line. -/
def execLaOverflow (s : State) : Host.Outcome State Fault Refusal :=
  attempt (s.bytePath ∧ s.headLineOp = .overflow) s s.takeByte.laOverflow

/-- LA_EOL_EMIT, R153: the BQ_POP step whose newline ends a record line. -/
def execLaEolEmit (s : State) : Host.Outcome State Fault Refusal :=
  attempt (s.bytePath ∧ s.headLineOp = .eolEmit) s s.takeByte.laEolEmit

/-- LA_EOL_NOISE, R154: the BQ_POP step whose newline ends any other line. -/
def execLaEolNoise (s : State) : Host.Outcome State Fault Refusal :=
  attempt (s.bytePath ∧ s.headLineOp = .eolNoise) s s.takeByte.laEolNoise

/-- RQ_PUSH, R157, runs inside LA_EOL_EMIT only: the BQ_POP step that pushes a line, or drops it. -/
def execRqPush (s : State) : Host.Outcome State Fault Refusal :=
  attempt (s.bytePath ∧ s.headLineOp = .eolEmit) s
    ({ s.takeByte with la := { s.la with buf := [] } }.pushLine s.la.buf)

end Sys2Proof.Machine
end

