-- ==== Sys2Proof/Machine/RecordParser.lean ====
section
/-! DEFINITION. The Record Parser and checksum validator (spec/42_record_parser.md): PARSE as a pure, total function
from a line to a Record (R170, R185). -/

namespace Sys2Proof.Machine

/-- `RecErr` (spec/10_state.md R32). -/
inductive RecErr where
  | none
  | hex
  | length
deriving DecidableEq, Repr

/-- A Record: a value, created and discarded per parse (spec/10_state.md R32). -/
structure Record where
  kind : Kind
  address : Addr
  payload : List Byte
  checksum : Byte
  valid : Bool
  err : RecErr
deriving DecidableEq, Repr

/-- `OTHER_REC` (R170, R184). -/
def otherRecord : Record := ⟨.other, 0, [], 0, false, .none⟩

/-- `bad(e)` (R170): a record of the kind, invalid, with nothing decoded. -/
def badRecord (k : Kind) (e : RecErr) : Record := ⟨k, 0, [], 0, false, e⟩

/-- The checksum relation (R175, spec/30_encoding.md R98). -/
def checksumHolds (count : Byte) (addrBytes payload : List Byte) (cks : Byte) : Bool :=
  decide ((count.toNat + byteSum addrBytes + byteSum payload + cks.toNat) % 256 = 0xFF)

/-- R170 steps 4 to 7: the fields of a record from its `count` decoded bytes (R172, R173, R174, R175). -/
def fieldsRecord (k : Kind) (count : Byte) (by_ : List Byte) : Record where
  kind := k
  address := BitVec.ofNat 32 (bigEndian (by_.take (addrWidth k)))
  payload := (by_.take (count.toNat - 1)).drop (addrWidth k)
  checksum := by_.getD (count.toNat - 1) 0
  valid := checksumHolds count (by_.take (addrWidth k)) ((by_.take (count.toNat - 1)).drop (addrWidth k))
    (by_.getD (count.toNat - 1) 0)
  err := .none

/-- R170 step 3 on: the text after the kind byte. The checks run in the order of R186. -/
def parseBody (mode : HexErrorMode) (k : Kind) : List Byte → Record
  | c0 :: c1 :: text =>
    match hexPair mode c0 c1 with
    | none => badRecord k .hex
    | some count =>
      if count.toNat < addrWidth k + 1 ∨ text.length < 2 * count.toNat then badRecord k .length
      else match hexBytes mode count.toNat text with
        | none => badRecord k .hex
        | some by_ => fieldsRecord k count by_
  | _ => badRecord k .length

/-- PARSE (R170). -/
def parseLine (cfg : Config) (line : List Byte) : Record :=
  match lineKind cfg line with
  | .other => otherRecord
  | k => parseBody cfg.hexMode k (line.drop 2)

end Sys2Proof.Machine
end

