-- ==== Sys2Proof/Machine/Storage.lean ====
section
/-! DEFINITION. The storage command port and the erase sequencer (spec/44_storage.md): SC_ISSUE, the two commands'
effects on the array, their completion, ERASE_REGION, ERASE_STEP and CTL_RAM_READY. A command is performed in the
SC_DONE step that completes it (R231, R232), so the meanings of SC_PROGRAM8 and SC_ERASE_SECTOR are the completing
step of a command of that kind (log 7). -/

namespace Sys2Proof.Machine

/-- SC_ISSUE (R230): the one procedure that emits `sc_cmd`. Without the completion-wait routine in RAM it sets the
sticky fault and stops CONS. -/
def State.scIssue (s : State) (op : StorageOp) (addr : Addr) (data : Phrase) (ret : WaitRet) : State :=
  if s.sc.ramReady then
    ({ s with
        sc := { s.sc with busy := true, op := op, addr := addr, data := data }
        cons := { s.cons with state := .wait, waitRet := ret } }.emitCommand op addr data).count
      (match op with
       | .program8 => .prog
       | .eraseSector => .erase)
  else { s with faultNoRam := true, cons := { s.cons with state := .fault } }

/-- Whether every byte of the phrase at `addr` reads `ERASED_BYTE` (R231). -/
def State.phraseErased (s : State) (addr : Addr) : Bool :=
  (List.range 8).all fun i => decide (s.storByte (addr + BitVec.ofNat 32 i) = Config.erasedByte)

/-- PROGRAM8_EFFECT (R231): the phrase is stored only on erased storage and status OK; otherwise each of its bytes
is a draw (R235). -/
def State.programEffect (s : State) (addr : Addr) (data : Phrase) (st : Status) : State :=
  if st = .ok ∧ s.phraseErased addr = true then
    { s with stor := s.stor.writeBytes addr (phraseBytes data) }
  else s.drawStorage addr 8

/-- ERASE_EFFECT (R232): the sector reads `ERASED_BYTE` throughout; after FAIL each of its bytes is a draw. -/
def State.eraseEffect (s : State) (addr : Addr) (st : Status) : State :=
  match st with
  | .ok => { s with stor := s.stor.eraseRange addr s.cfg.sectorSize }
  | .fail => s.drawStorage addr s.cfg.sectorSize

/-- The effect of the outstanding command on the array (R233). -/
def State.arrayEffect (s : State) (st : Status) : State :=
  match s.sc.op with
  | .program8 => s.programEffect s.sc.addr s.sc.data st
  | .eraseSector => s.eraseEffect s.sc.addr st

/-- That effect, and what the array held before it, which a stale HOST read may still see (spec/20_memory.md R84,
log 15). -/
def State.commandEffect (s : State) (st : Status) : State :=
  { s.arrayEffect st with past := s.stor :: s.past }

/-- The status is checked and propagated (R233, R234): FAIL sets the sticky flag and raises E12. -/
def State.noteStatus (s : State) (st : Status) : State :=
  match st with
  | .ok => s
  | .fail => { s with sc := { s.sc with fail := true } }.raise .storageFail

/-- Where CONS goes after `sc_done` (R233). -/
def State.afterDone (s : State) (st : Status) : State :=
  match s.cons.waitRet with
  | .we => { s with cons := { s.cons with state := .we } }
  | .endFlush => { s with cons := { s.cons with state := .idle } }.emitTransferDone
  | .erase =>
    { s with
      sc := { s.sc with eraseIdx := s.sc.eraseIdx + 1, eraseFail := s.sc.eraseFail || decide (st = .fail) }
      cons := { s.cons with state := .erase } }

/-- The body of SC_DONE (R233). -/
def State.completeCommand (s : State) (st : Status) : State :=
  ({ s.commandEffect st with sc := { s.sc with busy := false } }.noteStatus st).afterDone st

/-- SC_DONE, R233: the outstanding command completes with the status the storage controller chose (R236); one
offered with nothing outstanding is refused. -/
def execScDone (st : Status) (s : State) : Host.Outcome State Fault Refusal :=
  .next (if s.sc.busy then s.completeCommand st else s.refuse .unsolicitedDone)

/-- SC_PROGRAM8, R231: the completing step of an outstanding PROGRAM8. -/
def execScProgram8 (st : Status) (s : State) : Host.Outcome State Fault Refusal :=
  if s.sc.busy then attempt (s.sc.op = .program8) s (s.completeCommand st)
  else .next (s.refuse .unsolicitedDone)

/-- SC_ERASE_SECTOR, R232: the completing step of an outstanding ERASE_SECTOR. -/
def execScEraseSector (st : Status) (s : State) : Host.Outcome State Fault Refusal :=
  if s.sc.busy then attempt (s.sc.op = .eraseSector) s (s.completeCommand st)
  else .next (s.refuse .unsolicitedDone)

/-- The body of ERASE_REGION (R240): start the erase, or refuse an input that comes outside `C_OFF`. -/
def State.startErase (s : State) : State :=
  if s.cons.state = .off then
    { s with
      sc := { s.sc with eraseIdx := 0, eraseFail := false }
      cons := { s.cons with state := .erase } }
  else s.refuse .eraseRegionNotOff

/-- ERASE_REGION, R240. That the input is taken in every HOST state but `H_APP`, `H_IDLE` included, is log 10's
choice. -/
def execEraseRegion (s : State) : Host.Outcome State Fault Refusal :=
  attempt s.running s s.startErase

/-- The address of the sector to erase next (R241). -/
def State.eraseAddr (s : State) : Addr :=
  s.cfg.regionStart + BitVec.ofNat 32 (s.sc.eraseIdx * s.cfg.sectorSize)

/-- The body of ERASE_STEP (R241): the next sector's command, or the end of the erase (R242). -/
def State.eraseNext (s : State) : State :=
  if s.sc.eraseIdx < sectorCount s.cfg then s.scIssue .eraseSector s.eraseAddr erasedPhrase .erase
  else { s with cons := { s.cons with state := if s.cons.runEnabled then .idle else .off } }.emitEraseDone
    (if s.sc.eraseFail then .fail else .ok)

/-- ERASE_STEP, R241: enabled in `C_ERASE`. -/
def execEraseStep (s : State) : Host.Outcome State Fault Refusal :=
  attempt (s.running ∧ s.cons.state = .erase) s s.eraseNext

/-- The body of CTL_RAM_READY (R243). -/
def State.setRamReady (s : State) : State := { s with sc := { s.sc with ramReady := true } }

/-- CTL_RAM_READY, R243: the HOST reports that the completion-wait routine is in RAM. Taken in every HOST state that
has a HOST step (spec/60_exceptions.md R287), since R243's own example has it right after power-on (log 10). -/
def execCtlRamReady (s : State) : Host.Outcome State Fault Refusal :=
  attempt (s.host.state ≠ .idle ∧ s.host.state ≠ .app) s s.setRamReady

end Sys2Proof.Machine
end

