-- ==== Sys2Proof/Machine/WriteEngine.lean ====
section
/-! DEFINITION. The Write Engine (spec/43_write_engine.md): the window filter, the four cases, the end-of-transfer
flush, the routing of a parsed record, and CTL_RUN. -/

namespace Sys2Proof.Machine

/-- ISSUE_PROGRAM8 (R208): a phrase in the window goes to the storage port; any other raises E9 and is ignored. -/
def State.issueProgram8 (s : State) (base : Addr) (data : Phrase) (ret : WaitRet) : State :=
  if phraseInWindow s.cfg base then s.scIssue .program8 base data ret else s.raise .outOfRegion

/-- The cursor moves `k` bytes on, modulo 2^32 (R202). -/
def State.advance (s : State) (k : Nat) : State :=
  { s with we := { addr := s.we.addr + BitVec.ofNat 32 k, data := s.we.data.drop k } }

/-- The body of WE_CASE_A (R204): stash the last four bytes, aligned, as the PendingMerge; an older one is lost
with E11. -/
def State.stash (s : State) : State :=
  { (if s.pm.valid then s.raise .mergeLost else s) with
    pm := { valid := true, base := s.we.addr, low4 := firstHalf s.we.data } }.advance 4

/-- The phrase of WE_CASE_B (R205): the PendingMerge's low half where its base matches, else erased bytes; the
record's four bytes as the high half. -/
def State.mergedPhrase (s : State) : Phrase :=
  { lo := if s.pm.valid ∧ s.pm.base = s.we.addr - 4 then s.pm.low4 else erasedHalf
    hi := firstHalf s.we.data }

/-- WE_CASE_B up to its command (R205): the PendingMerge is cleared in every case, one for another base is lost with
E11, and the cursor moves on. -/
def State.useMerge (s : State) : State :=
  { (if s.pm.valid = true ∧ s.pm.base ≠ s.we.addr - 4 then s.raise .mergeLost else s) with
    pm := { s.pm with valid := false } }.advance 4

/-- The body of WE_CASE_B (R205). -/
def State.mergeHigh (s : State) : State := s.useMerge.issueProgram8 (s.we.addr - 4) s.mergedPhrase .we

/-- The body of WE_CASE_C (R206). -/
def State.programWhole (s : State) : State :=
  (s.advance 8).issueProgram8 s.we.addr (firstPhrase s.we.data) .we

/-- The body of WE_SKIP (R207): the rest of the record is left unprocessed and its bytes are counted. -/
def State.skipRest (s : State) : State :=
  { s with we := { s.we with data := [] }, cons := { s.cons with state := .idle } }.raiseBy
    .unhandledAlignment s.we.data.length

/-- The end of a transfer is announced at once, unless a flush command is outstanding or faulted (R209). -/
def State.announceEnd (s : State) : State :=
  if s.cons.state = .wait ∨ s.cons.state = .fault then s
  else { s with cons := { s.cons with state := .idle } }.emitTransferDone

/-- The End reset (R209, spec/10_state.md R48): PendingMerge, Line Assembler and Record Queue; not the Byte Queue. The
registers to which R48's End column gives no value (`pm_base`, `pm_low4`, `wait_ret`) keep what they held, which is log
2's choice; a flush that follows writes `wait_ret`. It empties the Record Queue in the very RQ_POP step that takes the end
record, although spec/41_line_assembler.md R158's example keeps the line behind it: log 16's choice. -/
def State.endReset (s : State) : State :=
  { s with pm := { s.pm with valid := false }, la := { buf := [], skip := false }, rq := [] }

/-- The body of WE_END (R209): End reset, then the flush of the PendingMerge, its high half erased bytes. -/
def State.endTransfer (s : State) : State :=
  (if s.pm.valid then s.endReset.issueProgram8 s.pm.base ⟨s.pm.low4, erasedHalf⟩ .endFlush
   else s.endReset).announceEnd

/-- A valid data record is loaded into the cursor; an empty one changes only its counter (R200, R202). -/
def State.takeData (s : State) (r : Record) : State :=
  if r.payload = [] then s.count .dataRec
  else { s with we := { addr := r.address, data := r.payload }, cons := { s.cons with state := .we } }.count .dataRec

/-- The body of WE_RECORD (R200): an invalid record has no effect but its event (R201). -/
def State.routeRecord (s : State) (r : Record) : State :=
  if r.kind = .other then s.raise .recordOther
  else if r.err = .hex then s.raise .hexError
  else if r.err = .length then s.raise .lengthError
  else if r.valid = false then s.raise .checksumFail
  else if isData r.kind then s.takeData r
  else (s.count .endRec).endTransfer

/-- WE_CASE_A, R204. -/
def execWeCaseA (s : State) : Host.Outcome State Fault Refusal := attempt (s.weCase .caseA) s s.stash

/-- WE_CASE_B, R205. -/
def execWeCaseB (s : State) : Host.Outcome State Fault Refusal := attempt (s.weCase .caseB) s s.mergeHigh

/-- WE_CASE_C, R206. -/
def execWeCaseC (s : State) : Host.Outcome State Fault Refusal := attempt (s.weCase .caseC) s s.programWhole

/-- WE_SKIP, R207. -/
def execWeSkip (s : State) : Host.Outcome State Fault Refusal := attempt (s.weCase .skip) s s.skipRest

/-- WE_FINISH, R210: a record that is exhausted. -/
def execWeFinish (s : State) : Host.Outcome State Fault Refusal :=
  attempt (s.running ∧ s.cons.state = .we ∧ s.we.data = []) s
    { s with cons := { s.cons with state := .idle } }

/-- The body of CTL_RUN (R212). -/
def State.enableRun (s : State) : State :=
  { s with cons := { s.cons with
      runEnabled := true, state := if s.cons.state = .off then .idle else s.cons.state } }

/-- CTL_RUN, R212: the HOST, in `H_LOOP`, enables the ingestion loop. -/
def execCtlRun (s : State) : Host.Outcome State Fault Refusal :=
  attempt (s.host.state = .loop) s s.enableRun

end Sys2Proof.Machine
end

