-- ==== Sys2Proof/Machine/RecordLines.lean ====
section
/-! DEFINITION. The line path: RQ_POP takes the oldest queued line, parses it and hands the record to the Write
Engine, all in one step (spec/41_line_assembler.md R158). PARSE, WE_RECORD, WE_END and the seven record kinds are
parts of that step and run inside it only (spec/42_record_parser.md R170, spec/43_write_engine.md R200, R209), so
each of their meanings is the whole step where it runs that part, and no move elsewhere (log 7). -/

namespace Sys2Proof.Machine

/-- The oldest queued line. -/
def State.headLine (s : State) : List Byte := s.rq.headD []

/-- The record the oldest queued line decodes to. -/
def State.headRecord (s : State) : Record := parseLine s.cfg s.headLine

/-- The body of RQ_POP (spec/41_line_assembler.md R158). -/
def State.takeLine (s : State) : State := { s with rq := s.rq.tail }.routeRecord s.headRecord

/-- The oldest queued line is a valid end-of-transfer record (spec/43_write_engine.md R200, R209). -/
def State.headEnds (s : State) : Bool := isEnd s.headRecord.kind && s.headRecord.valid

/-- RQ_POP, spec/41_line_assembler.md R158. -/
def execRqPop (s : State) : Host.Outcome State Fault Refusal := attempt s.linePath s s.takeLine

/-- PARSE, spec/42_record_parser.md R170: pure; it runs in the step that takes the line. -/
def execParse (s : State) : Host.Outcome State Fault Refusal :=
  attempt s.linePath s ({ s with rq := s.rq.tail }.routeRecord (parseLine s.cfg s.headLine))

/-- WE_RECORD, spec/43_write_engine.md R200: the step that routes the record of the line it takes. -/
def execWeRecord (s : State) : Host.Outcome State Fault Refusal :=
  attempt s.linePath s ({ s with rq := s.rq.tail }.routeRecord s.headRecord)

/-- WE_END, spec/43_write_engine.md R209: the step that takes a valid end record. -/
def execWeEnd (s : State) : Host.Outcome State Fault Refusal :=
  attempt (s.linePath ∧ s.headEnds = true) s ({ s with rq := s.rq.tail }.count .endRec).endTransfer

/-- The step that takes this very line from the head of the Record Queue. -/
def takeThisLine (line : List Byte) (s : State) : Host.Outcome State Fault Refusal :=
  attempt (s.linePath ∧ s.headLine = line) s ({ s with rq := s.rq.tail }.routeRecord (parseLine s.cfg line))

/-- REC_DATA16, spec/42_record_parser.md R178. -/
def execRecData16 (tail : List Byte) (s : State) : Host.Outcome State Fault Refusal :=
  takeThisLine (s.cfg.marker :: s.cfg.kinds.data16 :: tail) s

/-- REC_DATA24, spec/42_record_parser.md R179. -/
def execRecData24 (tail : List Byte) (s : State) : Host.Outcome State Fault Refusal :=
  takeThisLine (s.cfg.marker :: s.cfg.kinds.data24 :: tail) s

/-- REC_DATA32, spec/42_record_parser.md R180. -/
def execRecData32 (tail : List Byte) (s : State) : Host.Outcome State Fault Refusal :=
  takeThisLine (s.cfg.marker :: s.cfg.kinds.data32 :: tail) s

/-- REC_END32, spec/42_record_parser.md R181. -/
def execRecEnd32 (tail : List Byte) (s : State) : Host.Outcome State Fault Refusal :=
  takeThisLine (s.cfg.marker :: s.cfg.kinds.end32 :: tail) s

/-- REC_END24, spec/42_record_parser.md R182. -/
def execRecEnd24 (tail : List Byte) (s : State) : Host.Outcome State Fault Refusal :=
  takeThisLine (s.cfg.marker :: s.cfg.kinds.end24 :: tail) s

/-- REC_END16, spec/42_record_parser.md R183. -/
def execRecEnd16 (tail : List Byte) (s : State) : Host.Outcome State Fault Refusal :=
  takeThisLine (s.cfg.marker :: s.cfg.kinds.end16 :: tail) s

/-- REC_OTHER, spec/42_record_parser.md R184: a line no kind row takes. -/
def execRecOther (line : List Byte) (s : State) : Host.Outcome State Fault Refusal :=
  attempt (s.linePath ∧ s.headLine = line ∧ (parseLine s.cfg line).kind = .other) s
    ({ s with rq := s.rq.tail }.raise .recordOther)

end Sys2Proof.Machine
end

