-- ==== Sys2Proof/Machine/Session.lean ====
section
/-! DEFINITION. The resets within a model (spec/70_reset_and_hazards.md): SESSION_INIT (R302) and the external
reset that starts the next launch (R301). -/

namespace Sys2Proof.Machine

/-- SESSION_INIT's enable (R302): no command outstanding and nothing held; until then the input is not taken. -/
abbrev State.sessionReady (s : State) : Prop := s.sc.busy = false ∧ s.rxHold = []

/-- The body of SESSION_INIT (R302, the SESSION_INIT column of spec/10_state.md R48). The registers to which that column
gives no value (`pm_base`, `pm_low4`, `we_addr`, `wait_ret`) keep what they held, which is log 2's choice. -/
def State.sessionReset (s : State) : State :=
  { s with
    bq := { s.bq with rd := s.bq.wr, wrSeen := s.bq.wr }
    la := { buf := [], skip := false }
    rq := []
    pm := { s.pm with valid := false }
    we := { s.we with data := [] }
    sc := { s.sc with fail := false, eraseIdx := 0, eraseFail := false }
    cons := { s.cons with
      state := if s.cons.state = .fault then .fault else .off
      runEnabled := false }
    cnt := Counters.zero
    lastErr := 0 }

/-- SESSION_INIT, R302. That the input is taken in every HOST state but `H_APP`, `H_IDLE` included, is log 10's choice. -/
def execSessionInit (s : State) : Host.Outcome State Fault Refusal :=
  attempt (s.running ∧ s.sessionReady) s s.sessionReset

/-- The storage after an external reset (R301): an interrupted command's target is drawn, all else is kept. -/
def State.interruptStorage (s : State) : State :=
  if s.sc.busy then
    match s.sc.op with
    | .program8 => s.drawStorage s.sc.addr 8
    | .eraseSector => s.drawStorage s.sc.addr s.cfg.sectorSize
  else s

/-- An external reset (R301): a new launch in the power-on state of R300, with the storage carried over; the
selector's level is the environment's (spec/10_state.md R48), and the configuration and the schedule go on (log 4). -/
def State.relaunch (s : State) (level : Bool) : State :=
  State.powerOn s.cfg level s.interruptStorage.stor s.interruptStorage.draws s.sched

end Sys2Proof.Machine
end

