-- ==== Sys2Proof/Machine/Dispatch.lean ====
section
/-! DEFINITION. One arm per row of spec/opcode_table.json, each a call of that operation's meaning. -/

namespace Sys2Proof.Machine

def exec (i : Instr) (s : State) : Host.Outcome State Fault Refusal :=
  match i with
  | .recData16 tail => Sys2Proof.Machine.execRecData16 tail s
  | .recData24 tail => Sys2Proof.Machine.execRecData24 tail s
  | .recData32 tail => Sys2Proof.Machine.execRecData32 tail s
  | .recEnd32 tail => Sys2Proof.Machine.execRecEnd32 tail s
  | .recEnd24 tail => Sys2Proof.Machine.execRecEnd24 tail s
  | .recEnd16 tail => Sys2Proof.Machine.execRecEnd16 tail s
  | .recOther line => Sys2Proof.Machine.execRecOther line s
  | .bqPush b => Sys2Proof.Machine.execBqPush b s
  | .rxHold b => Sys2Proof.Machine.execRxHold b s
  | .bqPop => Sys2Proof.Machine.execBqPop s
  | .bqSync side => Sys2Proof.Machine.execBqSync side s
  | .rxRelease => Sys2Proof.Machine.execRxRelease s
  | .laAppend => Sys2Proof.Machine.execLaAppend s
  | .laOverflow => Sys2Proof.Machine.execLaOverflow s
  | .laEolEmit => Sys2Proof.Machine.execLaEolEmit s
  | .laEolNoise => Sys2Proof.Machine.execLaEolNoise s
  | .rqPush => Sys2Proof.Machine.execRqPush s
  | .rqPop => Sys2Proof.Machine.execRqPop s
  | .parse => Sys2Proof.Machine.execParse s
  | .weRecord => Sys2Proof.Machine.execWeRecord s
  | .weCaseA => Sys2Proof.Machine.execWeCaseA s
  | .weCaseB => Sys2Proof.Machine.execWeCaseB s
  | .weCaseC => Sys2Proof.Machine.execWeCaseC s
  | .weSkip => Sys2Proof.Machine.execWeSkip s
  | .weEnd => Sys2Proof.Machine.execWeEnd s
  | .weFinish => Sys2Proof.Machine.execWeFinish s
  | .scProgram8 status => Sys2Proof.Machine.execScProgram8 status s
  | .scEraseSector status => Sys2Proof.Machine.execScEraseSector status s
  | .scDone status => Sys2Proof.Machine.execScDone status s
  | .eraseRegion => Sys2Proof.Machine.execEraseRegion s
  | .eraseStep => Sys2Proof.Machine.execEraseStep s
  | .sessionInit => Sys2Proof.Machine.execSessionInit s
  | .ctlRamReady => Sys2Proof.Machine.execCtlRamReady s
  | .ctlRun => Sys2Proof.Machine.execCtlRun s

end Sys2Proof.Machine
end

