-- ==== Sys2Proof/Machine/Fetch.lean ====
section
/-! DEFINITION. What `step` reads to find what to run: how a rejected word becomes a refusal, which receive operation
an arriving byte is, the boot selector's level, and where a fetched word is placed. -/

namespace Sys2Proof.Machine

/-- The refusal of a rejected trace step (spec/30_encoding.md R106). -/
def rejectReason : Reject → RefuseReason
  | .unusedCode code => .unusedCode code
  | .badOperand code arg => .badOperand code arg

/-- The receive operation for the input `rx_byte(b)`: RX_HOLD while RX is masked or bytes are held, else BQ_PUSH
(spec/40_byte_queue.md R130, R132). -/
def State.arrival (s : State) (b : Byte) : Instr :=
  if s.rxMasked ∨ s.rxHold ≠ [] then .rxHold b else .bqPush b

/-- The environment's level on the boot selector line. Until the HOST's `H_DECIDE` step the line must be held steady;
an entry that comes before it breaks that duty where nothing detects it, and so has no move (spec/60_exceptions.md
R294, log 7). -/
def State.setBootSel (s : State) (level : Bool) : State :=
  if s.host.state = .init ∨ s.host.state = .decide then s
  else { s with host := { s.host with bootSel := level } }

/-- The state whose next step fetches `f`: a trace step goes to the head of the schedule; a line goes to the head slot
of the Record Queue, with CONS in `C_IDLE` and scheduled to take it. -/
def State.placeFetched (s : State) (f : Fetched) : State :=
  match f with
  | .op code arg => { s with sched := .trace code arg :: s.sched }
  | .line bytes =>
    { s with
      rq := bytes :: s.rq.drop 1
      cons := { s.cons with state := .idle }
      sched := .record :: s.sched }

end Sys2Proof.Machine
end

