-- ==== Sys2Proof/Machine/HostAgent.lean ====
section
/-! DEFINITION. The HOST's own steps: the bootloader state machine (spec/60_exceptions.md R280 to R287), which has no
row in the opcode table, and the HOST's reads (R291, R294). -/

namespace Sys2Proof.Machine

/-- Whether a 32-bit image word is `ERASED_WORD`: all four bytes, in any byte order (R286). -/
def wordErased (h : Half) : Bool := decide (h = erasedHalf)

/-- R281: the boot selector is sampled once. -/
def State.hostDecide (s : State) : State :=
  if s.host.bootSel = s.cfg.bootSelActive then { s with host := { s.host with state := .erase, phase := 0 } }
  else { s with host := { s.host with state := .jump } }

/-- R282: the four steps of `H_ERASE`, one per phase. Phase 1 holds until SESSION_INIT is enabled
(spec/70_reset_and_hazards.md R302), phase 3 until `erase_done` has been emitted: it takes the newest one not yet taken,
and one that was emitted before phase 2 will do, which are log 8's choices. -/
def State.hostErase (s : State) : State :=
  match s.host.phase with
  | 0 => { s with host := { s.host with phase := 1 } }.setRamReady
  | 1 => if s.sessionReady then { s with host := { s.host with phase := 2 } }.sessionReset else s
  | 2 => { s with host := { s.host with phase := 3 } }.startErase
  | 3 =>
    match s.ports.eraseDone with
    | some st =>
      { s with
        host := { s.host with state := .loop, report := s.host.report ++ [.ready st] }
        ports := { s.ports with eraseDone := none } }
    | none => s

/-- R283: the first step of `H_LOOP` is CTL_RUN; after it, one report DONE for each `transfer_done`. That the first
step is still to come is told by `run_enabled` (log 11). -/
def State.hostLoop (s : State) : State :=
  if s.cons.runEnabled = false then s.enableRun
  else if 0 < s.ports.transferDone then
    { s with
      host := { s.host with report := s.host.report ++ [.done] }
      ports := { s.ports with transferDone := s.ports.transferDone - 1 } }
  else s

/-- R285, R286: the image check, given the bytes of the two header words; a valid image is jumped to, an erased one is
reported. -/
def State.checkImage (s : State) (w0 w1 : Half) : State :=
  if wordErased w0 ∨ wordErased w1 then
    { s with host := { s.host with state := .idle, report := s.host.report ++ [.imageInvalid] } }
  else
    { s with host := { s.host with
        state := .app
        handoff := some {
          vectorBase := appBase s.cfg
          stackPointer := wordOf s.cfg.imageWordOrder w0
          entryPoint := wordOf s.cfg.imageWordOrder w1 } } }

/-- R284: the HOST reads the eight bytes of the two header words, each of which may be stale after a command of this
launch (spec/20_memory.md R84, log 15), and checks them. There is no test of `sc_busy`: no command is outstanding here
unless one was issued apart from the HOST's own steps, and for that case spec/44_storage.md R244 leaves it open whether
the read is refused. That it is not is log 15's choice. -/
def State.hostJump (s : State) : State :=
  { s.checkImage (s.readHalf 0 (appBase s.cfg)) (s.readHalf 4 (appBase s.cfg + 4)) with draws := s.draws + 8 }

/-- One step of the HOST (R280 to R287): `H_IDLE` and `H_APP` have none. -/
def State.hostStep (s : State) : State :=
  match s.host.state with
  | .init => { s with host := { s.host with state := .decide } }
  | .decide => s.hostDecide
  | .erase => s.hostErase
  | .loop => s.hostLoop
  | .jump => s.hostJump
  | .idle => s
  | .app => s

/-- `csr_read(i)` by the HOST (spec/10_state.md R47): no side effect but the model's record of it. -/
def State.readCsr (s : State) (i : Byte) : State := { s with reads := s.reads ++ [.csr i (s.csr i)] }

/-- A HOST read of storage (R294): refused while a command is outstanding, which spec/44_storage.md R244 allows
(log 9). Otherwise it gives the byte the array holds or, after a command of this launch, perhaps a stale one
(spec/20_memory.md R84, log 15). -/
def State.readStor (s : State) (a : Addr) : State :=
  if s.sc.busy then s.refuse .storageReadBusy
  else { s with reads := s.reads ++ [.stor a (s.readByte 0 a)], draws := s.draws + 1 }

end Sys2Proof.Machine
end

