-- ==== Sys2Proof/Machine/Step.lean ====
section
/-! DEFINITION. One step: the next entry of the schedule moves (spec/00_scope.md R8: any enabled agent may move, in
an order left open; log 4). And the placing of an opcode-table word where `step` fetches next. -/

namespace Sys2Proof.Machine

/-- What a fetched word does: the instruction it decodes to runs; a word the decoder rejects sets the refusal mark
(spec/30_encoding.md R106, spec/00_scope.md R13). -/
def State.runFetched (s : State) (f : Fetched) : Host.Outcome State Fault Refusal :=
  match decode s.cfg f with
  | .ok i => exec i s
  | .error r => .next (s.refuse (rejectReason r))

/-- What one entry of the schedule does. -/
def State.takeEvent (s : State) (e : Event) : Host.Outcome State Fault Refusal :=
  match e with
  | .trace code arg => s.runFetched (.op code arg)
  | .record => if s.rq = [] then .next s else s.runFetched (.line s.headLine)
  | .rxByte b => exec (s.arrival b) s
  | .hostStep => .next s.hostStep
  | .csrRead i => .next (s.readCsr i)
  | .storRead a => .next (s.readStor a)
  | .bootSel level => .next (s.setBootSel level)
  | .externalReset level => .next (s.relaunch level)

/-- One step. A configuration that breaks spec/00_scope.md R10 is refused. With nothing scheduled no agent moves. -/
def step (s : State) : Host.Outcome State Fault Refusal :=
  if s.cfg.wf then
    match s.sched with
    | [] => .next s
    | e :: rest => { s with sched := rest }.takeEvent e
  else .refused .illFormedConfiguration

/-- `s` with an opcode-table word where `step` fetches next. An operation is the next trace step of the schedule. A
record line is the line at the head of the Record Queue, taken by CONS in `C_IDLE`, where alone lines are taken
(spec/41_line_assembler.md R158; log 4). -/
def State.withFetchWord (s : State) (nbits w : Nat) : State := s.placeFetched (tableFetched nbits w)

end Sys2Proof.Machine
end

