-- ==== Sys2Proof/Machine/Fairness.lean ====
section
/-! DEFINITION. Weak fairness (spec/00_scope.md R8): which agent each step belongs to, when an agent has an enabled step,
and the infinite runs in which no agent that stays enabled waits for ever. `step` itself takes any schedule; a claim that
rests on fairness takes `WeaklyFair` as its premise (spec/70_reset_and_hazards.md R315, log 12). -/

namespace Sys2Proof.Machine

/-- The agents of spec/30_encoding.md R106 (spec/00_scope.md R8). The external receiver is part of the RX side
(spec/40_byte_queue.md R132). The synchroniser counts once for each copy, since each copy is eventually refreshed
(R135). -/
inductive Agent where
  | rx
  | receiver
  | synchroniser (side : Side)
  | cons
  | sc
  | host
deriving DecidableEq, Repr

/-- Whose step an operation is: the agent column of spec/30_encoding.md R106, where a storage command is the step of SC,
which performs it. The record rows are steps of CONS (spec/41_line_assembler.md R158). -/
def agentOf : Instr → Agent
  | .bqPush _ | .rxRelease => .rx
  | .rxHold _ => .receiver
  | .bqSync side => .synchroniser side
  | .scProgram8 _ | .scEraseSector _ | .scDone _ => .sc
  | .sessionInit | .ctlRamReady | .ctlRun => .host
  | .recData16 _ | .recData24 _ | .recData32 _ | .recEnd32 _ | .recEnd24 _ | .recEnd16 _ | .recOther _ | .bqPop
  | .laAppend | .laOverflow | .laEolEmit | .laEolNoise | .rqPush | .rqPop | .parse | .weRecord | .weCaseA | .weCaseB
  | .weCaseC | .weSkip | .weEnd | .weFinish | .eraseRegion | .eraseStep => .cons

/-- The operations that take an input of spec/10_state.md R20 the moment it is offered: a byte's arrival and the four
HOST inputs (spec/60_exceptions.md R294). Nobody owes them by themselves: a byte is a liberty of the environment, and
the HOST sends its inputs in its own steps, which are entries of the schedule of their own (log 12). -/
def takesInput : Instr → Bool
  | .bqPush _ | .rxHold _ | .eraseRegion | .sessionInit | .ctlRamReady | .ctlRun => true
  | .recData16 _ | .recData24 _ | .recData32 _ | .recEnd32 _ | .recEnd24 _ | .recEnd16 _ | .recOther _ | .bqPop
  | .bqSync _ | .rxRelease | .laAppend | .laOverflow | .laEolEmit | .laEolNoise | .rqPush | .rqPop | .parse | .weRecord
  | .weCaseA | .weCaseB | .weCaseC | .weSkip | .weEnd | .weFinish | .scProgram8 _ | .scEraseSector _ | .scDone _
  | .eraseStep => false

/-- The agent under fairness whose owed step an entry of the schedule is (log 12). -/
def owedBy (c : Config) : Event → Option Agent
  | .trace code arg =>
    match decode c (.op code arg) with
    | .ok i => if takesInput i then none else some (agentOf i)
    | .error _ => none
  | .record => some .cons
  | .hostStep => some .host
  | .rxByte _ | .csrRead _ | .storRead _ | .bootSel _ | .externalReset _ => none

/-- The HOST has an enabled step (spec/60_exceptions.md R280 to R287): phase 1 of `H_ERASE` holds until SESSION_INIT is
enabled, phase 3 until `erase_done` has come; `H_LOOP` has CTL_RUN, then one report for each `transfer_done`. -/
def State.hostEnabled (s : State) : Prop :=
  match s.host.state with
  | .init | .decide | .jump => True
  | .erase => (s.host.phase = 1 → s.sessionReady) ∧ (s.host.phase = 3 → s.ports.eraseDone ≠ none)
  | .loop => s.cons.runEnabled = false ∨ 0 < s.ports.transferDone
  | .idle | .app => False

/-- The agent has an enabled step: RX_RELEASE (spec/40_byte_queue.md R136); BQ_SYNC of a copy that is out of date (R135);
a CONS step (spec/41_line_assembler.md R156, spec/43_write_engine.md R203, spec/44_storage.md R241); SC_DONE (R233); a
HOST step. The external receiver has none but on a byte's arrival. -/
def State.enabled (s : State) : Agent → Prop
  | .rx => s.running ∧ ¬ s.rxMasked ∧ s.rxHold ≠ []
  | .receiver => False
  | .synchroniser .readCopy => s.running ∧ s.cfg.bqStaleView = true ∧ s.bq.rdSeen ≠ s.bq.rd
  | .synchroniser .writeCopy => s.running ∧ s.cfg.bqStaleView = true ∧ s.bq.wrSeen ≠ s.bq.wr
  | .cons => s.bytePath ∨ s.linePath ∨ s.running ∧ (s.cons.state = .we ∨ s.cons.state = .erase)
  | .sc => s.sc.busy = true
  | .host => s.hostEnabled

/-- The entry is an owed step of this agent, and it moves: `step` does more than consume it. -/
def State.movesFor (s : State) (a : Agent) (e : Event) : Prop :=
  owedBy s.cfg e = some a ∧ step { s with sched := [e] } ≠ .next { s with sched := [] }

/-- An infinite run: each state is what `step` makes of the one before with the next entry scheduled. -/
def IsRun (events : Nat → Event) (run : Nat → State) : Prop :=
  ∀ n, step { run n with sched := [events n] } = .next (run (n + 1))

/-- Weak fairness (R8): an agent that is enabled from some state on takes a step there or later. -/
def WeaklyFair (events : Nat → Event) (run : Nat → State) : Prop :=
  ∀ a n, (∀ m, n ≤ m → (run m).enabled a) → ∃ m, n ≤ m ∧ (run m).movesFor a (events m)

/-- The entry offers a byte on `rx_byte`, as an arrival or as the trace step of either receive operation
(spec/30_encoding.md R106). -/
def Event.offersByte : Event → Bool
  | .rxByte _ => true
  | .trace code _ => decide (code = 0x01) || decide (code = 0x02)
  | .record | .hostStep | .csrRead _ | .storRead _ | .bootSel _ | .externalReset _ => false

/-- The entry is an external reset, which ends a run (spec/70_reset_and_hazards.md R301). -/
def Event.isReset : Event → Bool
  | .externalReset _ => true
  | .trace _ _ | .record | .rxByte _ | .hostStep | .csrRead _ | .storRead _ | .bootSel _ => false

end Sys2Proof.Machine
end

