-- ==== Sys2Proof/Safety.lean ====
section
/-! DEFINITION. What counts as a good state and as the end of a run: the invariants the rules promise, agent by agent,
and the end states and the hangs of spec/70_reset_and_hazards.md R320. -/

namespace Sys2Proof.Machine

/-- The Byte Queue's invariant: the slots are `BQ_CAP` many, both indices lie in `[0, 2·BQ_CAP)`, the occupancy never
exceeds `BQ_CAP` (spec/10_state.md R26, R27), and each side's view errs on its own safe side: RX never sees the queue
emptier than it is, CONS never fuller (spec/40_byte_queue.md R135). -/
def State.QueueInv (s : State) : Prop :=
  1 ≤ s.cfg.bqCap ∧ s.bq.mem.length = s.cfg.bqCap ∧
  s.bq.wr < 2 * s.cfg.bqCap ∧ s.bq.rd < 2 * s.cfg.bqCap ∧
  s.bqCount ≤ s.seenByRx ∧ s.seenByRx ≤ s.cfg.bqCap ∧ s.seenByCons ≤ s.bqCount

/-- The queue's contents, oldest byte first: `bq_mem[(bq_rd + k) mod BQ_CAP]` for `k` in `[0, bq_count)`
(spec/10_state.md R26). -/
def State.queueBytes (s : State) : List Byte :=
  (List.range s.bqCount).map fun k => s.bq.mem.getD ((s.bq.rd + k) % s.cfg.bqCap) 0

/-- A line the Line Assembler may emit (spec/41_line_assembler.md R155, spec/10_state.md R29): it begins with the
marker, holds no newline and at most `LINE_MAX` bytes. -/
def EmittedLine (cfg : Config) (line : List Byte) : Prop :=
  line.head? = some cfg.marker ∧ cfg.newline ∉ line ∧ line.length ≤ cfg.lineMax

/-- The Line Assembler's and the Record Queue's invariant (spec/10_state.md R29, R30, R31). -/
def State.LinesInv (s : State) : Prop :=
  s.la.buf.length ≤ s.cfg.lineMax ∧ s.cfg.newline ∉ s.la.buf ∧
  (s.la.skip = true → s.cfg.overflowMode = .discardToNewline) ∧
  s.rq.length ≤ s.cfg.rqCap ∧ ∀ line ∈ s.rq, EmittedLine s.cfg line

/-- The PendingMerge is 8-aligned whenever it is present (spec/10_state.md R34). -/
def State.MergeInv (s : State) : Prop := s.pm.valid = true → s.pm.base.toNat % 8 = 0

/-- The outstanding command is one the ULFR may send (spec/20_memory.md R67, R68; spec/43_write_engine.md R208). -/
def State.CommandOk (s : State) : Prop :=
  match s.sc.op with
  | .program8 => s.sc.addr.toNat % 8 = 0 ∧ phraseInWindow s.cfg s.sc.addr = true
  | .eraseSector => s.sc.addr.toNat % s.cfg.sectorSize = 0 ∧ s.cfg.regionStart.toNat ≤ s.sc.addr.toNat ∧
      s.sc.addr.toNat + s.cfg.sectorSize ≤ s.cfg.regionStart.toNat + s.cfg.regionLen.toNat

/-- The storage port's invariant: a command is outstanding exactly while CONS waits (spec/10_state.md R37, R40), only
with the completion-wait routine in RAM (spec/44_storage.md R230), and it is one the ULFR may send; the PendingMerge
is aligned. -/
def State.PortInv (s : State) : Prop :=
  (s.sc.busy = true ↔ s.cons.state = .wait) ∧
  (s.sc.busy = true → s.sc.ramReady = true ∧ s.CommandOk) ∧ s.MergeInv

/-- CONS is stopped in `C_FAULT` exactly when the fault bit is set (spec/10_state.md R40, R42). -/
def State.FaultInv (s : State) : Prop :=
  (s.cons.state = .fault ↔ s.faultNoRam = true) ∧ (s.sc.busy = true ↔ s.cons.state = .wait)

/-- At most `RX_HOLD_DEPTH` bytes are held (spec/10_state.md R38). -/
def State.HoldInv (s : State) : Prop := s.rxHold.length ≤ s.cfg.rxHoldDepth

/-- Every counter is at most `2^CNT_BITS − 1` (spec/10_state.md R41), and `last_err` is 0 or the code of an error
event (spec/60_exceptions.md R260). -/
def State.CountersInv (s : State) : Prop :=
  (∀ id, s.cnt.get id ≤ 2 ^ s.cfg.cntBits - 1) ∧
  (s.lastErr = 0 ∨ ∃ e : ErrorEvent, e.isNote = false ∧ s.lastErr = e.code)

/-- The storage array is in its canonical form. -/
def State.StorageInv (s : State) : Prop := s.stor.wf = true

/-- All the invariants together, with a configuration the model runs (spec/00_scope.md R10). -/
def State.Inv (s : State) : Prop :=
  s.cfg.wf = true ∧ s.QueueInv ∧ s.LinesInv ∧ s.PortInv ∧ s.FaultInv ∧ s.HoldInv ∧ s.CountersInv ∧ s.StorageInv

/-- A hex character of a nibble, in upper or lower case (spec/30_encoding.md R94). -/
def hexChar (upper : Bool) (n : Nat) : Byte :=
  BitVec.ofNat 8 (if n < 10 then 0x30 + n else if upper then 0x37 + n else 0x57 + n)

/-- Bytes as hex text, two characters each, the high nibble first (spec/30_encoding.md R94). `upper` says for each
character by its place whether a letter there is upper case, so one text may mix the cases. -/
def hexText : (Nat → Bool) → List Byte → List Byte
  | _, [] => []
  | upper, b :: bs =>
    hexChar (upper 0) (b.toNat / 16) :: hexChar (upper 1) (b.toNat % 16) :: hexText (fun k => upper (k + 2)) bs

/-- The text of a record after its kind byte: count, address, payload, checksum, trailing bytes
(spec/30_encoding.md R91, R104). -/
def recordText (upper : Nat → Bool) (addr payload : List Byte) (cks : Byte) (trailing : List Byte) : List Byte :=
  hexText upper (BitVec.ofNat 8 (addr.length + payload.length + 1) :: (addr ++ payload ++ [cks])) ++ trailing

/-- The checksum relation of a record's bytes (spec/30_encoding.md R98). -/
def ChecksumRelation (addr payload : List Byte) (cks : Byte) : Prop :=
  (addr.length + payload.length + 1 + byteSum addr + byteSum payload + cks.toNat) % 256 = 0xFF

/-- Several operations one after the other, stopping at the first that gives no next state. -/
def execAll : List Instr → State → Host.Outcome State Fault Refusal
  | [], s => .next s
  | i :: is, s =>
    match exec i s with
    | .next t => execAll is t
    | .fault r => .fault r
    | .refused r => .refused r

/-- The run may still be an answer: no fault is set and nothing has been refused (R320). -/
def State.answers (s : State) : Prop := s.faultNoRam = false ∧ s.refused = none

/-- The ULFR is quiescent (R320 (c)). -/
def State.quiescent (s : State) : Prop :=
  s.rxHold = [] ∧ s.sc.busy = false ∧ s.bqCount = 0 ∧ (s.cfg.bqStaleView = true → s.bq.wrSeen = s.bq.wr) ∧
  s.rq = [] ∧ s.cons.state = .idle

/-- The end states of a run (R320), given whether the environment will offer no more bytes and whether an external
reset comes now: (a) the image was started, (b) the image check failed, (c) the loop is quiescent and no byte will come,
(d) the reset, which ends the run in the state it had. -/
def State.atEnd (s : State) (noMoreBytes resetNow : Prop) : Prop :=
  s.host.state = .app ∨ s.host.state = .idle ∨ (s.host.state = .loop ∧ noMoreBytes ∧ s.quiescent) ∨ resetNow

/-- A run that stands here is over and is an answer (R320): an end state without fault and refusal. What the environment
will offer is read from the schedule, up to the external reset that ends this launch. -/
def State.finished (s : State) : Prop :=
  s.answers ∧ s.atEnd (∀ e ∈ s.sched.takeWhile (fun e => !e.isReset), e.offersByte = false)
    (s.sched.head?.map Event.isReset = some true)

/-- The infinite run ends at its `n`-th state (R320). A state of (a) to (d) counts as an end with a fault or the refusal
mark set as well, although no answer (`State.finished`) stands there: R320 calls such a state "never final" and yet calls
a hang only a run that "never reaches one of these states". That it ends the run is log 12's choice. -/
def EndsAt (events : Nat → Event) (run : Nat → State) (n : Nat) : Prop :=
  (run n).atEnd
    (∀ m, n ≤ m → (events m).offersByte = true → ∃ k, n ≤ k ∧ k < m ∧ (events k).isReset = true)
    ((events n).isReset = true)

/-- A hang: a weakly fair run that never reaches an end state (R320). A run that reaches one only with a fault or the
refusal mark set is no hang, and no answer either, which is log 12's choice. -/
def Hangs (events : Nat → Event) (run : Nat → State) : Prop :=
  IsRun events run ∧ WeaklyFair events run ∧ ∀ n, ¬ EndsAt events run n

end Sys2Proof.Machine
end

