-- ==== Sys2Proof/Certificates/Slice0/Obligations.lean ====
section
/-! DEFINITION. The statements for the provers. Each docstring names the rules of spec/ a statement formalises, or the
rules and the log entry it rests on. -/

open Sys2Proof Sys2Proof.Machine

/-- `sat_inc` of spec/00_scope.md R11, written out. -/
def Sys2Proof.Machine.satInc (c : Config) (n : Nat) : Nat := min (n + 1) (2 ^ c.cntBits - 1)

/-- The state after a storage command completed with a status, given what the array then holds and the count of free
choices: spec/44_storage.md R233, written out field by field. What the array held before is remembered for a stale HOST
read (log 15), and a transfer's end waits for the HOST (log 8). -/
def Sys2Proof.Machine.completed (s : State) (st : Status) (m : Memory) (d : Nat) : State :=
  { s with
    stor := m
    past := s.stor :: s.past
    draws := d
    sc := { s.sc with
      busy := false
      fail := if st = .fail then true else s.sc.fail
      eraseIdx := if s.cons.waitRet = .erase then s.sc.eraseIdx + 1 else s.sc.eraseIdx
      eraseFail := if s.cons.waitRet = .erase ∧ st = .fail then true else s.sc.eraseFail }
    cons := { s.cons with state :=
      match s.cons.waitRet with
      | .we => .we
      | .endFlush => .idle
      | .erase => .erase }
    cnt := if st = .fail then { s.cnt with storageFail := satInc s.cfg s.cnt.storageFail } else s.cnt
    lastErr := if st = .fail then 12 else s.lastErr
    ports := if s.cons.waitRet = .endFlush
      then { s.ports with
        emitted := s.ports.emitted ++ [.transferDone], transferDone := s.ports.transferDone + 1 }
      else s.ports }

/-- The state after SC_ISSUE of a PROGRAM8 with the completion-wait routine in RAM (spec/44_storage.md R230), written
out field by field. -/
def Sys2Proof.Machine.issuedProgram (s : State) (base : Addr) (data : Phrase) (ret : WaitRet) : State :=
  { s with
    sc := { s.sc with busy := true, op := .program8, addr := base, data := data }
    cons := { s.cons with state := .wait, waitRet := ret }
    cnt := { s.cnt with prog := satInc s.cfg s.cnt.prog }
    ports := { s.ports with emitted := s.ports.emitted ++ [.scCmd .program8 base data] } }

/-- The number that address bytes write: `sum over j of by[j] · 256^(aw − 1 − j)` (spec/42_record_parser.md R172), the
first byte most significant (spec/30_encoding.md R96). -/
def Sys2Proof.Machine.addressSum (bs : List Byte) : Nat :=
  ((List.range bs.length).map fun j => (bs.getD j 0).toNat * 256 ^ (bs.length - 1 - j)).sum

/-- The image word of four bytes read at rising addresses, `word(a)` of spec/60_exceptions.md R284, in the two orders of
log 14. -/
def Sys2Proof.Machine.headerWord (c : Config) (b0 b1 b2 b3 : Byte) : Word32 :=
  match c.imageWordOrder with
  | .littleEndian => b3 ++ b2 ++ b1 ++ b0
  | .bigEndian => b0 ++ b1 ++ b2 ++ b3

/-! ## Encoding -/

/-- Every well-formed instruction, operations and record lines alike, decodes from its encoding (spec/30_encoding.md
R93, R106, R107; the operand byte of a trace step is log 5's). -/
def Obligations.DecodeOfEncodeIsTheInstruction : Prop :=
  ∀ (c : Config) (i : Instr), c.wf = true → i.wf c = true → decode c (encode c i) = .ok i

/-- Whatever decodes is the encoding of what it decodes to: no two words mean one instruction (spec/30_encoding.md R93,
R106; the operand byte of a trace step is log 5's). -/
def Obligations.EncodeOfDecodeIsTheWord : Prop :=
  ∀ (c : Config) (f : Fetched) (i : Instr), decode c f = .ok i → encode c i = f

/-- The 27 operation codes of spec/30_encoding.md R106, the side and status fields of R107 and spec/40_byte_queue.md
R135, and the five codes that name no operation: a trace step that carries one sets the refusal mark (spec/00_scope.md
R13). That an operand follows its code as one byte is log 5's; that the mark takes the newest reason, in a state already
marked too, and that nothing else changes is log 9's. -/
def Obligations.OperationCodesAreThoseOfTheTable : Prop :=
  (∀ (c : Config) (b : Byte),
    decode c (.op 0x01 b) = .ok (.bqPush b) ∧ decode c (.op 0x02 b) = .ok (.rxHold b) ∧
    decode c (.op 0x03 0) = .ok .bqPop ∧
    decode c (.op 0x04 0) = .ok (.bqSync .readCopy) ∧ decode c (.op 0x04 1) = .ok (.bqSync .writeCopy) ∧
    decode c (.op 0x05 0) = .ok .rxRelease ∧ decode c (.op 0x08 0) = .ok .laAppend ∧
    decode c (.op 0x09 0) = .ok .laOverflow ∧ decode c (.op 0x0A 0) = .ok .laEolEmit ∧
    decode c (.op 0x0B 0) = .ok .laEolNoise ∧ decode c (.op 0x0C 0) = .ok .rqPush ∧
    decode c (.op 0x0D 0) = .ok .rqPop ∧ decode c (.op 0x0E 0) = .ok .parse ∧
    decode c (.op 0x10 0) = .ok .weRecord ∧ decode c (.op 0x11 0) = .ok .weCaseA ∧
    decode c (.op 0x12 0) = .ok .weCaseB ∧ decode c (.op 0x13 0) = .ok .weCaseC ∧
    decode c (.op 0x14 0) = .ok .weSkip ∧ decode c (.op 0x15 0) = .ok .weEnd ∧
    decode c (.op 0x16 0) = .ok .weFinish ∧
    decode c (.op 0x18 0) = .ok (.scProgram8 .ok) ∧ decode c (.op 0x18 1) = .ok (.scProgram8 .fail) ∧
    decode c (.op 0x19 0) = .ok (.scEraseSector .ok) ∧ decode c (.op 0x19 1) = .ok (.scEraseSector .fail) ∧
    decode c (.op 0x1A 0) = .ok (.scDone .ok) ∧ decode c (.op 0x1A 1) = .ok (.scDone .fail) ∧
    decode c (.op 0x1B 0) = .ok .eraseRegion ∧ decode c (.op 0x1C 0) = .ok .eraseStep ∧
    decode c (.op 0x1D 0) = .ok .sessionInit ∧ decode c (.op 0x1E 0) = .ok .ctlRamReady ∧
    decode c (.op 0x1F 0) = .ok .ctlRun) ∧
  (∀ (s : State) (rest : List Event) (code : BitVec 5) (arg : Byte),
    s.cfg.wf = true → s.sched = .trace code arg :: rest → code ∈ [0x00, 0x06, 0x07, 0x0F, 0x17] →
    step s = .next { s with sched := rest, refused := some (.unusedCode code) })

/-- A step runs the decoded instruction: a trace step its operation, a queued line its record row, an arriving byte
RX_HOLD while RX is masked or bytes are held and BQ_PUSH otherwise (spec/30_encoding.md R106, spec/41_line_assembler.md
R158, spec/40_byte_queue.md R130, R132). Around it the schedule's head is consumed, which is log 4's. -/
def Obligations.StepRunsTheDecodedInstruction : Prop :=
  ∀ (s : State) (rest : List Event), s.cfg.wf = true →
    (∀ code arg i, s.sched = .trace code arg :: rest → decode s.cfg (.op code arg) = .ok i →
      step s = exec i { s with sched := rest }) ∧
    (∀ line lines i, s.sched = .record :: rest → s.rq = line :: lines → decode s.cfg (.line line) = .ok i →
      step s = exec i { s with sched := rest }) ∧
    (∀ b, s.sched = .rxByte b :: rest →
      step s = exec (if s.sc.busy = true ∨ s.rxHold ≠ [] then .rxHold b else .bqPush b) { s with sched := rest })

/-! ## Byte Queue -/

/-- BQ_PUSH (spec/40_byte_queue.md R130): with RX armed, not masked and nothing held, the byte is stored at
`bq_wr mod BQ_CAP`, or, when the queue is full as RX sees it, dropped with E1; nothing else changes. -/
def Obligations.BqPushStoresOrDropsTheByte : Prop :=
  ∀ (s : State) (b : Byte), s.host.state ≠ .init → s.host.state ≠ .app → s.sc.busy = false → s.rxHold = [] →
    (s.seenByRx = s.cfg.bqCap → exec (.bqPush b) s = .next { s with
      cnt := { s.cnt with bqDrop := satInc s.cfg s.cnt.bqDrop }, lastErr := 1 }) ∧
    (s.seenByRx ≠ s.cfg.bqCap → exec (.bqPush b) s = .next { s with bq := { s.bq with
      mem := s.bq.mem.set (s.bq.wr % s.cfg.bqCap) b, wr := (s.bq.wr + 1) % (2 * s.cfg.bqCap) } })

/-- The queue is first in, first out: a stored byte becomes the last of the contents, a popped byte was the first
(spec/40_byte_queue.md R137; spec/10_state.md R26 for the contents). -/
def Obligations.ByteQueueIsFirstInFirstOut : Prop :=
  ∀ s : State, s.QueueInv →
    (∀ b, s.host.state ≠ .init → s.host.state ≠ .app → s.sc.busy = false → s.rxHold = [] →
      s.seenByRx ≠ s.cfg.bqCap → ∃ t, exec (.bqPush b) s = .next t ∧ t.queueBytes = s.queueBytes ++ [b]) ∧
    (s.bytePath → ∃ t, exec .bqPop s = .next t ∧ s.queueBytes = s.headByte :: t.queueBytes)

/-- RX_HOLD (spec/40_byte_queue.md R132): with RX armed and either masked or behind held bytes, the receiver keeps the
byte, or loses it with E13 when `rx_hold` is at its depth; nothing else changes. -/
def Obligations.RxHoldKeepsOrLosesTheByte : Prop :=
  ∀ (s : State) (b : Byte), s.host.state ≠ .init → s.host.state ≠ .app → (s.sc.busy = true ∨ s.rxHold ≠ []) →
    (s.rxHold.length < s.cfg.rxHoldDepth → exec (.rxHold b) s = .next { s with rxHold := s.rxHold ++ [b] }) ∧
    (s.cfg.rxHoldDepth ≤ s.rxHold.length → exec (.rxHold b) s = .next { s with
      cnt := { s.cnt with rxLost := satInc s.cfg s.cnt.rxLost }, lastErr := 13 })

/-- RX_RELEASE (spec/40_byte_queue.md R136): once RX is unmasked the oldest held byte leaves `rx_hold` and goes through
BQ_PUSH with its full check and drop; nothing else changes. -/
def Obligations.RxReleasePushesTheOldestHeldByte : Prop :=
  ∀ (s : State) (b : Byte) (rest : List Byte), s.host.state ≠ .app → s.sc.busy = false → s.rxHold = b :: rest →
    (s.seenByRx = s.cfg.bqCap → exec .rxRelease s = .next { s with
      rxHold := rest, cnt := { s.cnt with bqDrop := satInc s.cfg s.cnt.bqDrop }, lastErr := 1 }) ∧
    (s.seenByRx ≠ s.cfg.bqCap → exec .rxRelease s = .next { s with
      rxHold := rest
      bq := { s.bq with
        mem := s.bq.mem.set (s.bq.wr % s.cfg.bqCap) b, wr := (s.bq.wr + 1) % (2 * s.cfg.bqCap) } })

/-- BQ_SYNC (spec/40_byte_queue.md R135): with `BQ_STALE_VIEW` and a copy out of date, one side's copy of the other
side's index is refreshed; nothing else changes. -/
def Obligations.BqSyncRefreshesOneCopy : Prop :=
  ∀ s : State, s.host.state ≠ .app → s.cfg.bqStaleView = true →
    (s.bq.rdSeen ≠ s.bq.rd ∨ s.bq.wrSeen ≠ s.bq.wr) →
    exec (.bqSync .readCopy) s = .next { s with bq := { s.bq with rdSeen := s.bq.rd } } ∧
    exec (.bqSync .writeCopy) s = .next { s with bq := { s.bq with wrSeen := s.bq.wr } }

/-- The Byte Queue's invariant, kept by every step: the occupancy never exceeds `BQ_CAP` (spec/10_state.md R27), RX's
view is never emptier than the truth and CONS's never fuller (spec/40_byte_queue.md R135). -/
def Obligations.ByteQueueInvariantKept : Prop :=
  ∀ s t : State, s.QueueInv → step s = .next t → t.QueueInv

/-- Whatever step is taken, the queue's contents stay, gain one byte at the end, lose the first byte, or are emptied
(spec/40_byte_queue.md R137, spec/20_memory.md R76). -/
def Obligations.ByteQueueChangesOnlyAtItsEnds : Prop :=
  ∀ s t : State, s.QueueInv → step s = .next t →
    t.queueBytes = s.queueBytes ∨ (∃ b, t.queueBytes = s.queueBytes ++ [b]) ∨
    (∃ b, s.queueBytes = b :: t.queueBytes) ∨ t.queueBytes = []

/-! ## Line Assembler and Record Queue -/

/-- BQ_POP (spec/40_byte_queue.md R133): where the byte path is open, the oldest byte leaves the queue and runs exactly
one Line Assembler operation in the same step (spec/41_line_assembler.md R150): LA_APPEND (R151), LA_OVERFLOW (R152),
LA_EOL_EMIT with RQ_PUSH (R153, R157) or LA_EOL_NOISE (R154); nothing else changes. -/
def Obligations.BqPopRunsOneLineOperation : Prop :=
  ∀ (s : State) (b : Byte) (q : ByteQueue), s.bytePath →
    b = s.bq.mem.getD (s.bq.rd % s.cfg.bqCap) 0 →
    q = { s.bq with rd := (s.bq.rd + 1) % (2 * s.cfg.bqCap) } →
    (b ≠ s.cfg.newline → s.la.skip = false → s.la.buf.length ≠ s.cfg.lineMax →
      exec .bqPop s = .next { s with bq := q, la := { buf := s.la.buf ++ [b], skip := false } }) ∧
    (b ≠ s.cfg.newline → s.la.skip = true → exec .bqPop s = .next { s with bq := q }) ∧
    (b ≠ s.cfg.newline → s.la.skip = false → s.la.buf.length = s.cfg.lineMax →
      exec .bqPop s = .next { s with
        bq := q
        la := { buf := [], skip := decide (s.cfg.overflowMode = OverflowMode.discardToNewline) }
        cnt := { s.cnt with lineOverflow := satInc s.cfg s.cnt.lineOverflow }, lastErr := 2 }) ∧
    (b = s.cfg.newline → s.la.skip = false → s.la.buf.head? = some s.cfg.marker → s.rq.length ≠ s.cfg.rqCap →
      exec .bqPop s = .next { s with
        bq := q, la := { buf := [], skip := false }, rq := s.rq ++ [s.la.buf]
        cnt := { s.cnt with lines := satInc s.cfg s.cnt.lines } }) ∧
    (b = s.cfg.newline → s.la.skip = false → s.la.buf.head? = some s.cfg.marker → s.rq.length = s.cfg.rqCap →
      exec .bqPop s = .next { s with
        bq := q, la := { buf := [], skip := false }
        cnt := { s.cnt with rqDrop := satInc s.cfg s.cnt.rqDrop }, lastErr := 4 }) ∧
    (b = s.cfg.newline → s.la.skip = false → s.la.buf.head? ≠ some s.cfg.marker →
      exec .bqPop s = .next { s with
        bq := q, la := { buf := [], skip := false }
        cnt := { s.cnt with lineNoise := satInc s.cfg s.cnt.lineNoise } }) ∧
    (b = s.cfg.newline → s.la.skip = true →
      exec .bqPop s = .next { s with bq := q, la := { buf := [], skip := false } })

/-- The rows LA_APPEND, LA_OVERFLOW, LA_EOL_EMIT, LA_EOL_NOISE and RQ_PUSH each run the BQ_POP step that performs them
(spec/41_line_assembler.md R150 to R154, R157). That such a row names its whole step is log 7's. -/
def Obligations.LineOperationRowsAreTheirBqPopStep : Prop :=
  ∀ (s : State) (b : Byte) (q : ByteQueue), s.bytePath →
    b = s.bq.mem.getD (s.bq.rd % s.cfg.bqCap) 0 →
    q = { s.bq with rd := (s.bq.rd + 1) % (2 * s.cfg.bqCap) } →
    (b ≠ s.cfg.newline → s.la.skip = false → s.la.buf.length ≠ s.cfg.lineMax →
      exec .laAppend s = .next { s with bq := q, la := { buf := s.la.buf ++ [b], skip := false } }) ∧
    (b ≠ s.cfg.newline → s.la.skip = true → exec .laOverflow s = .next { s with bq := q }) ∧
    (b ≠ s.cfg.newline → s.la.skip = false → s.la.buf.length = s.cfg.lineMax →
      exec .laOverflow s = .next { s with
        bq := q
        la := { buf := [], skip := decide (s.cfg.overflowMode = OverflowMode.discardToNewline) }
        cnt := { s.cnt with lineOverflow := satInc s.cfg s.cnt.lineOverflow }, lastErr := 2 }) ∧
    (b = s.cfg.newline → s.la.skip = false → s.la.buf.head? = some s.cfg.marker → s.rq.length ≠ s.cfg.rqCap →
      ∀ i, i = .laEolEmit ∨ i = .rqPush → exec i s = .next { s with
        bq := q, la := { buf := [], skip := false }, rq := s.rq ++ [s.la.buf]
        cnt := { s.cnt with lines := satInc s.cfg s.cnt.lines } }) ∧
    (b = s.cfg.newline → s.la.skip = false → s.la.buf.head? = some s.cfg.marker → s.rq.length = s.cfg.rqCap →
      ∀ i, i = .laEolEmit ∨ i = .rqPush → exec i s = .next { s with
        bq := q, la := { buf := [], skip := false }
        cnt := { s.cnt with rqDrop := satInc s.cfg s.cnt.rqDrop }, lastErr := 4 }) ∧
    (b = s.cfg.newline → s.la.skip = false → s.la.buf.head? ≠ some s.cfg.marker →
      exec .laEolNoise s = .next { s with
        bq := q, la := { buf := [], skip := false }
        cnt := { s.cnt with lineNoise := satInc s.cfg s.cnt.lineNoise } }) ∧
    (b = s.cfg.newline → s.la.skip = true →
      exec .laEolNoise s = .next { s with bq := q, la := { buf := [], skip := false } })

/-- The Line Assembler's and Record Queue's invariant, kept by every step: the buffer holds no newline and at most
`LINE_MAX` bytes, a skip needs its mode (spec/10_state.md R29), and the queue holds at most `RQ_CAP` lines, each one the
Line Assembler may emit (R30, R31, spec/41_line_assembler.md R155). -/
def Obligations.LinesInvariantKept : Prop :=
  ∀ s t : State, s.LinesInv → step s = .next t → t.LinesInv

/-- Whatever step is taken, the Record Queue stays, gains one line at the end, loses the first line, or is emptied
(spec/41_line_assembler.md R159, spec/20_memory.md R76). -/
def Obligations.RecordQueueChangesOnlyAtItsEnds : Prop :=
  ∀ s t : State, step s = .next t →
    t.rq = s.rq ∨ (∃ line, t.rq = s.rq ++ [line]) ∨ (∃ line, s.rq = line :: t.rq) ∨ t.rq = []

/-! ## Record Parser -/

/-- The parser reads back every record's text, each letter in either case and with any trailing bytes: kind, the address
with its first byte most significant, payload in order, checksum byte, and `valid` exactly when the checksum relation
holds (spec/30_encoding.md R91, R94, R96, R97, R98, R104; spec/42_record_parser.md R170, R172 to R175). -/
def Obligations.ParseReadsBackEveryRecordText : Prop :=
  ∀ (c : Config) (d : Byte) (addr payload : List Byte) (cks : Byte) (trailing : List Byte)
    (upper : Nat → Bool),
    c.kindOf d ≠ .other → addr.length = addrWidth (c.kindOf d) → addr.length + payload.length + 1 ≤ 255 →
    ∃ v : Bool, (v = true ↔ ChecksumRelation addr payload cks) ∧
      parseLine c (c.marker :: d :: recordText upper addr payload cks trailing) =
        { kind := c.kindOf d, address := BitVec.ofNat 32 (addressSum addr), payload := payload, checksum := cks
          valid := v, err := .none }

/-- The order of the parser's checks (spec/42_record_parser.md R171, R186): a line shorter than 4, a hex error in the
count, a count too small or a line too short, a hex error in a later pair; the first that fails decides, and nothing is
decoded. With none, the record has no error. -/
def Obligations.ParseErrorsComeInOrder : Prop :=
  ∀ (c : Config) (line : List Byte), lineKind c line ≠ .other →
    (line.length < 4 → parseLine c line = badRecord (lineKind c line) .length) ∧
    (4 ≤ line.length → hexPair c.hexMode (line.getD 2 0) (line.getD 3 0) = none →
      parseLine c line = badRecord (lineKind c line) .hex) ∧
    (∀ count, 4 ≤ line.length → hexPair c.hexMode (line.getD 2 0) (line.getD 3 0) = some count →
      (count.toNat < addrWidth (lineKind c line) + 1 ∨ line.length < 4 + 2 * count.toNat →
        parseLine c line = badRecord (lineKind c line) .length) ∧
      (addrWidth (lineKind c line) + 1 ≤ count.toNat → 4 + 2 * count.toNat ≤ line.length →
        ((∃ j < count.toNat, hexPair c.hexMode (line.getD (4 + 2 * j) 0) (line.getD (5 + 2 * j) 0) = none) →
          parseLine c line = badRecord (lineKind c line) .hex) ∧
        ((∀ j < count.toNat, hexPair c.hexMode (line.getD (4 + 2 * j) 0) (line.getD (5 + 2 * j) 0) ≠ none) →
          (parseLine c line).err = .none ∧ (parseLine c line).kind = lineKind c line)))

/-- Hex characters (spec/42_record_parser.md R176, R177; spec/30_encoding.md R94): digits and letters of both cases have
their values, the first character of a pair is the high nibble, and any other byte is an error in mode `reject` and the
nibble 0 in mode `zero_substitute`. -/
def Obligations.HexDigitsHaveTheirValues : Prop :=
  (∀ (mode : HexErrorMode) (upper : Bool) (n : Fin 16), hexDigit mode (hexChar upper n.val) = some (BitVec.ofNat 4 n.val)) ∧
  (∀ c : Byte, (∀ (upper : Bool) (n : Fin 16), c ≠ hexChar upper n.val) →
    hexDigit .reject c = none ∧ hexDigit .zeroSubstitute c = some 0) ∧
  (∀ (mode : HexErrorMode) (c0 c1 : Byte) (v0 v1 : BitVec 4), hexDigit mode c0 = some v0 → hexDigit mode c1 = some v1 →
    hexPair mode c0 c1 = some (BitVec.ofNat 8 (16 * v0.toNat + v1.toNat))) ∧
  (∀ (mode : HexErrorMode) (c0 c1 : Byte), hexDigit mode c0 = none ∨ hexDigit mode c1 = none →
    hexPair mode c0 c1 = none)

/-- In mode `zero_substitute` no line is a hex error (spec/42_record_parser.md R177, spec/60_exceptions.md R265). -/
def Obligations.ZeroSubstituteNeverReportsHex : Prop :=
  ∀ (c : Config) (line : List Byte), c.hexMode = .zeroSubstitute → (parseLine c line).err ≠ .hex

/-- A payload has at most 252 bytes (spec/10_state.md R32), and at most 123 in a line of at most 256
(spec/30_encoding.md R99). -/
def Obligations.PayloadLengthIsBounded : Prop :=
  ∀ (c : Config) (line : List Byte), (parseLine c line).payload.length ≤ 252 ∧
    (line.length ≤ 256 → (parseLine c line).payload.length ≤ 123)

/-! ## Taking a record -/

/-- RQ_POP (spec/41_line_assembler.md R158) takes the oldest line and routes its record (spec/43_write_engine.md R200):
an OTHER record is noted, an invalid one only counted (R201), a valid data record with a payload loads the cursor, one
without only counts; nothing else changes. -/
def Obligations.RqPopRoutesTheRecord : Prop :=
  ∀ (s : State) (line : List Byte) (rest : List (List Byte)) (r : Record), s.linePath → s.rq = line :: rest →
    r = parseLine s.cfg line →
    (r.kind = .other → exec .rqPop s = .next { s with
      rq := rest, cnt := { s.cnt with recOther := satInc s.cfg s.cnt.recOther } }) ∧
    (r.kind ≠ .other → r.err = .hex → exec .rqPop s = .next { s with
      rq := rest, cnt := { s.cnt with hexErr := satInc s.cfg s.cnt.hexErr }, lastErr := 5 }) ∧
    (r.kind ≠ .other → r.err = .length → exec .rqPop s = .next { s with
      rq := rest, cnt := { s.cnt with lenErr := satInc s.cfg s.cnt.lenErr }, lastErr := 6 }) ∧
    (r.kind ≠ .other → r.err = .none → r.valid = false → exec .rqPop s = .next { s with
      rq := rest, cnt := { s.cnt with cksumFail := satInc s.cfg s.cnt.cksumFail }, lastErr := 7 }) ∧
    (isData r.kind = true → r.err = .none → r.valid = true → r.payload = [] → exec .rqPop s = .next { s with
      rq := rest, cnt := { s.cnt with dataRec := satInc s.cfg s.cnt.dataRec } }) ∧
    (isData r.kind = true → r.err = .none → r.valid = true → r.payload ≠ [] → exec .rqPop s = .next { s with
      rq := rest, we := { addr := r.address, data := r.payload }, cons := { s.cons with state := .we }
      cnt := { s.cnt with dataRec := satInc s.cfg s.cnt.dataRec } })

/-- A valid end record (spec/43_write_engine.md R209) clears the PendingMerge, the Line Assembler and the Record Queue;
`transfer_done` comes at once when there is nothing to flush or the phrase lies outside the window (E9), and otherwise a
PROGRAM8 with an erased high half is sent, or, without the RAM routine, CONS faults; nothing else changes. The row WE_END
runs this same step, which is log 7's. That `pm_base`, `pm_low4` and `wait_ret`, which have no value after an End
(spec/10_state.md R48), are kept is log 2's, that a `transfer_done` waits for the HOST log 8's, that the lines behind the
end record are lost, against the example of spec/41_line_assembler.md R158, log 16's. -/
def Obligations.ValidEndRecordEndsTheTransfer : Prop :=
  ∀ (s s1 : State) (line : List Byte) (rest : List (List Byte)) (i : Instr), i = .rqPop ∨ i = .weEnd →
    s.linePath → s.rq = line :: rest →
    isEnd (parseLine s.cfg line).kind = true → (parseLine s.cfg line).valid = true →
    s1 = { s with
      pm := { s.pm with valid := false }, la := { buf := [], skip := false }, rq := []
      cnt := { s.cnt with endRec := satInc s.cfg s.cnt.endRec } } →
    (s.pm.valid = false → exec i s = .next { s1 with ports := { s.ports with
      emitted := s.ports.emitted ++ [.transferDone], transferDone := s.ports.transferDone + 1 } }) ∧
    (s.pm.valid = true → phraseInWindow s.cfg s.pm.base = false → exec i s = .next { s1 with
      cnt := { s1.cnt with outOfRegion := satInc s.cfg s.cnt.outOfRegion }, lastErr := 9
      ports := { s.ports with
        emitted := s.ports.emitted ++ [.transferDone], transferDone := s.ports.transferDone + 1 } }) ∧
    (s.pm.valid = true → phraseInWindow s.cfg s.pm.base = true → s.sc.ramReady = true →
      exec i s = .next (issuedProgram s1 s.pm.base ⟨s.pm.low4, ⟨0xFF, 0xFF, 0xFF, 0xFF⟩⟩ .endFlush)) ∧
    (s.pm.valid = true → phraseInWindow s.cfg s.pm.base = true → s.sc.ramReady = false →
      exec i s = .next { s1 with faultNoRam := true, cons := { s.cons with state := .fault } })

/-- PARSE, WE_RECORD and the row of the line's own kind run the very RQ_POP step that takes the line
(spec/42_record_parser.md R170, spec/43_write_engine.md R200). That such a row names its whole step is log 7's. -/
def Obligations.LineRowsAreTheirRqPopStep : Prop :=
  ∀ (s : State) (line : List Byte) (rest : List (List Byte)), s.linePath → s.rq = line :: rest →
    ∃ t, exec .rqPop s = .next t ∧ exec .parse s = .next t ∧ exec .weRecord s = .next t ∧
      exec (decodeLine s.cfg line) s = .next t ∧ (t.rq = rest ∨ t.rq = [])

/-- REC_DATA16, REC_DATA24 and REC_DATA32 (spec/42_record_parser.md R178 to R180): the text of a data record with a
payload and a right checksum, at the head of the Record Queue, is taken, and its address, the first byte most significant
(spec/42_record_parser.md R172), and its payload load the cursor (spec/43_write_engine.md R200, R202); nothing else
changes. That such a row names its whole step is log 7's. -/
def Obligations.DataRecordLinesLoadTheCursor : Prop :=
  ∀ (s : State) (rest : List (List Byte)) (addr payload : List Byte) (cks : Byte) (trailing : List Byte)
    (upper : Nat → Bool) (i : Instr) (d : Byte) (text : List Byte),
    s.cfg.wf = true → s.linePath → text = recordText upper addr payload cks trailing →
    (addr.length = 2 ∧ d = s.cfg.kinds.data16 ∧ i = .recData16 text ∨
     addr.length = 3 ∧ d = s.cfg.kinds.data24 ∧ i = .recData24 text ∨
     addr.length = 4 ∧ d = s.cfg.kinds.data32 ∧ i = .recData32 text) →
    addr.length + payload.length + 1 ≤ 255 → payload ≠ [] → ChecksumRelation addr payload cks →
    s.rq = (s.cfg.marker :: d :: text) :: rest →
    exec i s = .next { s with
      rq := rest
      we := { addr := BitVec.ofNat 32 (addressSum addr), data := payload }
      cons := { s.cons with state := .we }
      cnt := { s.cnt with dataRec := satInc s.cfg s.cnt.dataRec } }

/-- REC_END32, REC_END24 and REC_END16 (spec/42_record_parser.md R181 to R183): the text of an end record with a right
checksum, at the head of the Record Queue with no PendingMerge outstanding, ends the transfer (spec/43_write_engine.md
R209); its address and payload are used by nothing; nothing else changes. That such a row names its whole step is log
7's, what becomes of the registers that have no value after an End log 2's, of the `transfer_done` log 8's, of the lines behind the end
record log 16's. -/
def Obligations.EndRecordLinesEndTheTransfer : Prop :=
  ∀ (s : State) (rest : List (List Byte)) (addr payload : List Byte) (cks : Byte) (trailing : List Byte)
    (upper : Nat → Bool) (i : Instr) (d : Byte) (text : List Byte),
    s.cfg.wf = true → s.linePath → text = recordText upper addr payload cks trailing →
    (addr.length = 4 ∧ d = s.cfg.kinds.end32 ∧ i = .recEnd32 text ∨
     addr.length = 3 ∧ d = s.cfg.kinds.end24 ∧ i = .recEnd24 text ∨
     addr.length = 2 ∧ d = s.cfg.kinds.end16 ∧ i = .recEnd16 text) →
    addr.length + payload.length + 1 ≤ 255 → ChecksumRelation addr payload cks → s.pm.valid = false →
    s.rq = (s.cfg.marker :: d :: text) :: rest →
    exec i s = .next { s with
      rq := []
      la := { buf := [], skip := false }
      cnt := { s.cnt with endRec := satInc s.cfg s.cnt.endRec }
      ports := { s.ports with
        emitted := s.ports.emitted ++ [.transferDone], transferDone := s.ports.transferDone + 1 } }

/-- REC_OTHER (spec/42_record_parser.md R184): a line with no marker first, no second byte, or a second byte that is no
kind digit is taken with the note E8 alone (spec/43_write_engine.md R200); `last_err` and all else stay. That such a row
names its whole step is log 7's. -/
def Obligations.OtherLinesAreOnlyNoted : Prop :=
  ∀ (s : State) (line : List Byte) (rest : List (List Byte)), s.linePath → s.rq = line :: rest →
    otherLine s.cfg line = true →
    exec (.recOther line) s = .next { s with
      rq := rest, cnt := { s.cnt with recOther := satInc s.cfg s.cnt.recOther } }

/-! ## Write Engine -/

/-- WE_CASE_A (spec/43_write_engine.md R204): four bytes left at an aligned address become the PendingMerge; one already
there is lost with E11; no command is sent and nothing else changes. -/
def Obligations.WeCaseAStashesTheFragment : Prop :=
  ∀ (s : State) (b0 b1 b2 b3 : Byte), s.host.state ≠ .app → s.cons.state = .we → s.we.addr.toNat % 8 = 0 →
    s.we.data = [b0, b1, b2, b3] →
    exec .weCaseA s = .next { s with
      pm := { valid := true, base := s.we.addr, low4 := ⟨b0, b1, b2, b3⟩ }
      we := { addr := s.we.addr + 4, data := [] }
      cnt := if s.pm.valid = true then { s.cnt with mergeLost := satInc s.cfg s.cnt.mergeLost } else s.cnt
      lastErr := if s.pm.valid = true then 11 else s.lastErr }

/-- WE_CASE_B (spec/43_write_engine.md R205, R208): the phrase below a half-aligned fragment is completed with the
PendingMerge of its base, or with erased bytes; the PendingMerge is cleared in every case, and one for another base is
lost with E11; outside the window nothing is sent and E9 follows; without the RAM routine CONS faults. -/
def Obligations.WeCaseBMergesOrPads : Prop :=
  ∀ (s s1 : State) (b0 b1 b2 b3 : Byte) (rest : List Byte) (base : Addr) (low : Half), s.host.state ≠ .app →
    s.cons.state = .we → s.we.addr.toNat % 8 = 4 → s.we.data = b0 :: b1 :: b2 :: b3 :: rest → base = s.we.addr - 4 →
    low = (if s.pm.valid = true ∧ s.pm.base = base then s.pm.low4 else ⟨0xFF, 0xFF, 0xFF, 0xFF⟩) →
    s1 = { s with
      pm := { s.pm with valid := false }
      we := { addr := s.we.addr + 4, data := rest }
      cnt := if s.pm.valid = true ∧ s.pm.base ≠ base
        then { s.cnt with mergeLost := satInc s.cfg s.cnt.mergeLost } else s.cnt
      lastErr := if s.pm.valid = true ∧ s.pm.base ≠ base then 11 else s.lastErr } →
    (phraseInWindow s.cfg base = true → s.sc.ramReady = true →
      exec .weCaseB s = .next (issuedProgram s1 base ⟨low, ⟨b0, b1, b2, b3⟩⟩ .we)) ∧
    (phraseInWindow s.cfg base = true → s.sc.ramReady = false →
      exec .weCaseB s = .next { s1 with faultNoRam := true, cons := { s.cons with state := .fault } }) ∧
    (phraseInWindow s.cfg base = false → exec .weCaseB s = .next { s1 with
      cnt := { s1.cnt with outOfRegion := satInc s.cfg s.cnt.outOfRegion }, lastErr := 9 })

/-- WE_CASE_C (spec/43_write_engine.md R206, R208): the first eight bytes at an aligned address are programmed; the
PendingMerge is neither read nor cleared; outside the window nothing is sent and E9 follows; without the RAM routine CONS
faults. -/
def Obligations.WeCaseCProgramsTheFirstPhrase : Prop :=
  ∀ (s s1 : State) (b0 b1 b2 b3 b4 b5 b6 b7 : Byte) (rest : List Byte), s.host.state ≠ .app → s.cons.state = .we →
    s.we.addr.toNat % 8 = 0 → s.we.data = b0 :: b1 :: b2 :: b3 :: b4 :: b5 :: b6 :: b7 :: rest →
    s1 = { s with we := { addr := s.we.addr + 8, data := rest } } →
    (phraseInWindow s.cfg s.we.addr = true → s.sc.ramReady = true →
      exec .weCaseC s = .next (issuedProgram s1 s.we.addr ⟨⟨b0, b1, b2, b3⟩, ⟨b4, b5, b6, b7⟩⟩ .we)) ∧
    (phraseInWindow s.cfg s.we.addr = true → s.sc.ramReady = false →
      exec .weCaseC s = .next { s1 with faultNoRam := true, cons := { s.cons with state := .fault } }) ∧
    (phraseInWindow s.cfg s.we.addr = false → exec .weCaseC s = .next { s1 with
      cnt := { s.cnt with outOfRegion := satInc s.cfg s.cnt.outOfRegion }, lastErr := 9 })

/-- WE_SKIP (spec/43_write_engine.md R207): where no case applies, the rest of the record is left unprocessed, its bytes
are counted, E10 is raised and CONS is idle; nothing else changes. -/
def Obligations.WeSkipCountsTheRest : Prop :=
  ∀ s : State, s.host.state ≠ .app → s.cons.state = .we → s.we.data ≠ [] →
    (s.we.addr.toNat % 8 ≠ 0 ∧ s.we.addr.toNat % 8 ≠ 4 ∨
     s.we.addr.toNat % 8 = 0 ∧ s.we.data.length ∈ [1, 2, 3, 5, 6, 7] ∨
     s.we.addr.toNat % 8 = 4 ∧ s.we.data.length < 4) →
    exec .weSkip s = .next { s with
      we := { s.we with data := [] }
      cons := { s.cons with state := .idle }
      cnt := { s.cnt with
        bytesUnhandled := min (s.cnt.bytesUnhandled + s.we.data.length) (2 ^ s.cfg.cntBits - 1) }
      lastErr := 10 }

/-- WE_FINISH (spec/43_write_engine.md R210): a record that is exhausted returns CONS to idle; nothing else changes. -/
def Obligations.WeFinishReturnsToIdle : Prop :=
  ∀ s : State, s.host.state ≠ .app → s.cons.state = .we → s.we.data = [] →
    exec .weFinish s = .next { s with cons := { s.cons with state := .idle } }

/-- In `C_WE` exactly one of the five Write Engine steps moves, whatever the address and the bytes left
(spec/43_write_engine.md R203, R210; spec/30_encoding.md R108). That the other four, not enabled, answer the same state
is log 7's. -/
def Obligations.ExactlyOneWriteStepMoves : Prop :=
  ∀ s : State, s.host.state ≠ .app → s.cons.state = .we →
    ∃ i ∈ [Instr.weCaseA, .weCaseB, .weCaseC, .weSkip, .weFinish],
      (∃ t, exec i s = .next t ∧ t ≠ s) ∧
      ∀ j ∈ [Instr.weCaseA, .weCaseB, .weCaseC, .weSkip, .weFinish], j ≠ i → exec j s = .next s

/-- A record of whole phrases at an aligned address, inside the window and on erased storage, with every command
completing OK, is programmed exactly: its bytes stand at their addresses, every other byte of storage is unchanged, and
CONS is idle again; of the rest of the state it says nothing (the case of spec/43_write_engine.md R213 that Case C alone covers; R206, R208, R210;
spec/44_storage.md R231, R233). -/
def Obligations.AlignedRecordIsProgrammedExactly : Prop :=
  ∀ (n : Nat) (s : State), s.cfg.wf = true → s.host.state ≠ .app → s.cons.state = .we → s.sc.ramReady = true →
    s.stor.wf = true → s.we.addr.toNat % 8 = 0 → s.we.data.length = 8 * n →
    s.cfg.regionStart.toNat ≤ s.we.addr.toNat →
    s.we.addr.toNat + 8 * n ≤ s.cfg.regionStart.toNat + s.cfg.regionLen.toNat →
    (∀ k < 8 * n, s.storByte (s.we.addr + BitVec.ofNat 32 k) = 0xFF) →
    ∃ t, execAll ((List.replicate n [Instr.weCaseC, .scDone .ok]).flatten ++ [.weFinish]) s = .next t ∧
      (∀ k < 8 * n, t.storByte (s.we.addr + BitVec.ofNat 32 k) = s.we.data.getD k 0) ∧
      (∀ a : Addr, 8 * n ≤ (a - s.we.addr).toNat → t.storByte a = s.storByte a) ∧ t.cons.state = .idle

/-! ## Storage command port -/

/-- SC_DONE with status OK completes a PROGRAM8 on an erased phrase (spec/44_storage.md R231, R233): byte `k` of the data
stands at `addr + k` (spec/20_memory.md R65), every other byte of storage is unchanged, and the ULFR's reaction is
R233's. The row SC_PROGRAM8 is that completing step, which is log 7's. -/
def Obligations.CompletedProgramStoresThePhrase : Prop :=
  ∀ (s : State) (i : Instr), i = .scDone .ok ∨ i = .scProgram8 .ok → s.sc.busy = true → s.sc.op = .program8 →
    s.stor.wf = true → (∀ k < 8, s.storByte (s.sc.addr + BitVec.ofNat 32 k) = 0xFF) →
    ∃ m : Memory, exec i s = .next (completed s .ok m s.draws) ∧ m.wf = true ∧
      (∀ k < 8, m.read (s.sc.addr + BitVec.ofNat 32 k).toNat = (phraseBytes s.sc.data).getD k 0) ∧
      ∀ a : Addr, 8 ≤ (a - s.sc.addr).toNat → m.read a.toNat = s.stor.read a.toNat

/-- SC_DONE with status OK completes an ERASE_SECTOR (spec/44_storage.md R232, R233): the sector reads 0xFF throughout,
every other byte of storage is unchanged, and the ULFR's reaction is R233's. The row SC_ERASE_SECTOR is that completing
step, which is log 7's. -/
def Obligations.CompletedEraseClearsTheSector : Prop :=
  ∀ (s : State) (i : Instr), i = .scDone .ok ∨ i = .scEraseSector .ok → s.sc.busy = true → s.sc.op = .eraseSector →
    s.stor.wf = true →
    ∃ m : Memory, exec i s = .next (completed s .ok m s.draws) ∧ m.wf = true ∧
      (∀ a : Addr, (a - s.sc.addr).toNat < s.cfg.sectorSize → m.read a.toNat = 0xFF) ∧
      ∀ a : Addr, s.cfg.sectorSize ≤ (a - s.sc.addr).toNat → m.read a.toNat = s.stor.read a.toNat

/-- A command that ends in FAIL, and a PROGRAM8 on a phrase that is not erased, leave every byte outside their target
unchanged and the target to draws (spec/44_storage.md R231, R232, R235), with the flag, the counter and the code of E12
exactly on FAIL (R233, R234). Each byte of the target is a draw of its own, the next of the run, which is log 6's; it
holds for every value of the draws. The rows SC_PROGRAM8 and SC_ERASE_SECTOR are that completing step, which is log 7's. -/
def Obligations.DrawsReachOnlyTheTarget : Prop :=
  ∀ (s : State), s.sc.busy = true → s.stor.wf = true →
    (∀ st i, i = .scDone st ∨ i = .scProgram8 st → s.sc.op = .program8 →
      st = .fail ∨ (∃ k < 8, s.storByte (s.sc.addr + BitVec.ofNat 32 k) ≠ 0xFF) →
      ∃ m : Memory, exec i s = .next (completed s st m (s.draws + 8)) ∧ m.wf = true ∧
        (∀ k < 8, m.read (s.sc.addr + BitVec.ofNat 32 k).toNat = Config.drawByte (s.draws + k)) ∧
        ∀ a : Addr, 8 ≤ (a - s.sc.addr).toNat → m.read a.toNat = s.stor.read a.toNat) ∧
    (∀ i, i = .scDone .fail ∨ i = .scEraseSector .fail → s.sc.op = .eraseSector →
      ∃ m : Memory, exec i s = .next (completed s .fail m (s.draws + s.cfg.sectorSize)) ∧ m.wf = true ∧
        (s.cfg.wf = true → ∀ k < s.cfg.sectorSize,
          m.read (s.sc.addr + BitVec.ofNat 32 k).toNat = Config.drawByte (s.draws + k)) ∧
        ∀ a : Addr, s.cfg.sectorSize ≤ (a - s.sc.addr).toNat → m.read a.toNat = s.stor.read a.toNat)

/-- The storage controller's two duties (spec/60_exceptions.md R294, row `sc_done`). A completion offered with no command
outstanding is refused (spec/44_storage.md R233): the mark is set, with the newest reason, and nothing else changes,
which is log 9's; the rows SC_PROGRAM8 and SC_ERASE_SECTOR are completions by log 7. And in every weakly fair run an
outstanding command is over in the end (spec/00_scope.md R8, spec/70_reset_and_hazards.md R315); fairness is stated over
infinite schedules, log 12. -/
def Obligations.UnsolicitedCompletionIsRefusedAndOwedOneComes : Prop :=
  (∀ (s : State) (st : Status) (i : Instr), i = .scDone st ∨ i = .scProgram8 st ∨ i = .scEraseSector st →
    s.sc.busy = false → exec i s = .next { s with refused := some .unsolicitedDone }) ∧
  (∀ (events : Nat → Event) (run : Nat → State), IsRun events run → WeaklyFair events run →
    ∀ n, (run n).sc.busy = true → ∃ m, n < m ∧ (run m).sc.busy = false)

/-- ERASE_REGION (spec/44_storage.md R240): in `C_OFF` it starts the erase at the first sector; in any other state the
input is refused; nothing else changes. That a refusal leaves the newest reason and changes nothing else is log 9's, that
the input is taken in every HOST state but `H_APP` log 10's. -/
def Obligations.EraseRegionStartsOrIsRefused : Prop :=
  ∀ s : State, s.host.state ≠ .app →
    (s.cons.state = .off → exec .eraseRegion s = .next { s with
      sc := { s.sc with eraseIdx := 0, eraseFail := false }, cons := { s.cons with state := .erase } }) ∧
    (s.cons.state ≠ .off → exec .eraseRegion s = .next { s with refused := some .eraseRegionNotOff })

/-- ERASE_STEP (spec/44_storage.md R241, with SC_ISSUE of R230): while sectors are left it sends the next one's erase
and waits, or faults without the RAM routine; after the last it emits `erase_done` with the status and CONS is idle or
off; nothing else changes. That the status waits for the HOST in place of any older one is log 8's. -/
def Obligations.EraseStepSequencesTheWindow : Prop :=
  ∀ (s : State) (a : Addr) (data : Phrase), s.host.state ≠ .app → s.cons.state = .erase →
    a = s.cfg.regionStart + BitVec.ofNat 32 (s.sc.eraseIdx * s.cfg.sectorSize) →
    data = ⟨⟨0xFF, 0xFF, 0xFF, 0xFF⟩, ⟨0xFF, 0xFF, 0xFF, 0xFF⟩⟩ →
    (s.sc.eraseIdx < s.cfg.regionLen.toNat / s.cfg.sectorSize → s.sc.ramReady = true →
      exec .eraseStep s = .next { s with
        sc := { s.sc with busy := true, op := .eraseSector, addr := a, data := data }
        cons := { s.cons with state := .wait, waitRet := .erase }
        cnt := { s.cnt with erase := satInc s.cfg s.cnt.erase }
        ports := { s.ports with emitted := s.ports.emitted ++ [.scCmd .eraseSector a data] } }) ∧
    (s.sc.eraseIdx < s.cfg.regionLen.toNat / s.cfg.sectorSize → s.sc.ramReady = false →
      exec .eraseStep s = .next { s with faultNoRam := true, cons := { s.cons with state := .fault } }) ∧
    (s.cfg.regionLen.toNat / s.cfg.sectorSize ≤ s.sc.eraseIdx →
      exec .eraseStep s = .next { s with
        cons := { s.cons with state := if s.cons.runEnabled = true then .idle else .off }
        ports := { s.ports with
          emitted := s.ports.emitted ++ [.eraseDone (if s.sc.eraseFail = true then .fail else .ok)]
          eraseDone := some (if s.sc.eraseFail = true then .fail else .ok) } })

/-- The storage port's invariant, kept by every step: a command is outstanding exactly while CONS waits
(spec/10_state.md R37, R40), only with the RAM routine in place (spec/44_storage.md R230), and it is an 8-aligned phrase
in the window or a whole sector of it (spec/20_memory.md R67, R68); the PendingMerge is 8-aligned (spec/10_state.md
R34). -/
def Obligations.StoragePortInvariantKept : Prop :=
  ∀ s t : State, s.PortInv → step s = .next t → t.PortInv

/-- Kept by every step: CONS is in `C_FAULT` exactly when `F_NO_RAM_ROUTINE` is set (spec/10_state.md R40, R42,
spec/44_storage.md R230). -/
def Obligations.FaultInvariantKept : Prop :=
  ∀ s t : State, s.FaultInv → step s = .next t → t.FaultInv

/-- Every step keeps the storage array in its canonical form (spec/10_state.md R44 says what it holds; the form is the
model's own, log 1). -/
def Obligations.StorageStaysCanonical : Prop :=
  ∀ s t : State, s.StorageInv → step s = .next t → t.StorageInv

/-- Every step keeps every counter at most `2^CNT_BITS − 1` and `last_err` 0 or an error code (spec/10_state.md R41,
spec/60_exceptions.md R260), and at most `RX_HOLD_DEPTH` bytes held (spec/10_state.md R38). -/
def Obligations.CountersAndHoldStayBounded : Prop :=
  ∀ s t : State, step s = .next t → (s.CountersInv → t.CountersInv) ∧ (s.HoldInv → t.HoldInv)

/-- With no command outstanding no step writes the storage array (spec/10_state.md R44, R46); with one outstanding only
the storage controller's step or an external reset does (spec/44_storage.md R231 to R233, spec/70_reset_and_hazards.md
R301): the head of the schedule is then the code of SC_PROGRAM8, SC_ERASE_SECTOR or SC_DONE (spec/30_encoding.md R106;
that the three are completions is log 7's), or the reset. -/
def Obligations.OnlyCompletionOrResetWritesStorage : Prop :=
  ∀ s t : State, step s = .next t →
    (s.sc.busy = false → t.stor = s.stor) ∧
    (s.sc.busy = true → t.stor ≠ s.stor →
      (∃ arg : Byte, s.sched.head? = some (.trace 0x18 arg) ∨ s.sched.head? = some (.trace 0x19 arg) ∨
        s.sched.head? = some (.trace 0x1A arg)) ∨
      ∃ level, s.sched.head? = some (.externalReset level))

/-- No step ever changes a byte of storage outside the window (spec/20_memory.md R75, spec/43_write_engine.md R208). -/
def Obligations.StorageOutsideTheWindowNeverChanges : Prop :=
  ∀ s t : State, s.PortInv → step s = .next t →
    ∀ a : Addr, a.toNat < s.cfg.regionStart.toNat ∨ s.cfg.regionStart.toNat + s.cfg.regionLen.toNat ≤ a.toNat →
      t.storByte a = s.storByte a

/-- The critical section (spec/20_memory.md R81, spec/44_storage.md R239): while a command is outstanding no step but an
external reset puts a byte into the Byte Queue. -/
def Obligations.NoByteEntersTheQueueWhileMasked : Prop :=
  ∀ s t : State, s.sc.busy = true → (∀ level, s.sched.head? ≠ some (.externalReset level)) → step s = .next t →
    t.bq.wr = s.bq.wr ∧ t.bq.mem = s.bq.mem

/-- No step but an external reset clears the fault bit or the refusal mark (spec/10_state.md R42). -/
def Obligations.FaultsAndRefusalsStick : Prop :=
  ∀ s t : State, (∀ level, s.sched.head? ≠ some (.externalReset level)) → step s = .next t →
    (s.faultNoRam = true → t.faultNoRam = true) ∧ (s.refused ≠ none → t.refused ≠ none)

/-! ## HOST, resets, status registers -/

/-- CTL_RAM_READY (spec/44_storage.md R243) records the RAM routine, in every HOST state that has a HOST step, which is
log 10's reading of R243's example; CTL_RUN (spec/43_write_engine.md R212) enables the loop in `H_LOOP`. Nothing else
changes. -/
def Obligations.ControlInputsTakeEffect : Prop :=
  ∀ s : State,
    (s.host.state ≠ .idle → s.host.state ≠ .app →
      exec .ctlRamReady s = .next { s with sc := { s.sc with ramReady := true } }) ∧
    (s.host.state = .loop → exec .ctlRun s = .next { s with cons := { s.cons with
      runEnabled := true, state := if s.cons.state = .off then .idle else s.cons.state } })

/-- SESSION_INIT (spec/70_reset_and_hazards.md R302): with no command outstanding and nothing held, the Byte Queue is
emptied by its read index, the ingestion state, flags and every counter are cleared, and everything else is kept. That
the registers without a value (`pm_base`, `pm_low4`, `we_addr`, `wait_ret`; spec/10_state.md R48) are kept too is log
2's, that the input is taken in every HOST state but `H_APP` log 10's. -/
def Obligations.SessionInitResetsIngestion : Prop :=
  ∀ s : State, s.host.state ≠ .app → s.sc.busy = false → s.rxHold = [] →
    exec .sessionInit s = .next { s with
      bq := { s.bq with rd := s.bq.wr, wrSeen := s.bq.wr }
      la := { buf := [], skip := false }
      rq := []
      pm := { s.pm with valid := false }
      we := { s.we with data := [] }
      sc := { s.sc with fail := false, eraseIdx := 0, eraseFail := false }
      cons := { s.cons with
        state := if s.cons.state = .fault then .fault else .off, runEnabled := false }
      cnt := ⟨0, 0, 0, 0, 0, 0, 0, 0, 0, 0, 0, 0, 0, 0, 0, 0, 0, 0⟩
      lastErr := 0 }

/-- A step that is not enabled moves nothing: log 7's reading of spec/60_exceptions.md R294. SESSION_INIT holds
(spec/70_reset_and_hazards.md R302); in mode `lines_first` or `bytes_first` the closed path does not run
(spec/41_line_assembler.md R156); BQ_SYNC never fires without `BQ_STALE_VIEW` or with both copies up to date
(spec/40_byte_queue.md R135); a row that names a part of a step does not move where the step runs another part
(spec/41_line_assembler.md R150, R158). Inside `C_WE` the statement is ExactlyOneWriteStepMoves, after the jump
NothingMovesAfterTheJump. That CTL_RAM_READY is not taken in `H_IDLE` is log 10's. -/
def Obligations.NotEnabledMovesNothing : Prop :=
  ∀ (s : State) (head : Byte), head = s.bq.mem.getD (s.bq.rd % s.cfg.bqCap) 0 →
    (∀ b, s.host.state = .init ∨ s.host.state = .app ∨ s.sc.busy = true ∨ s.rxHold ≠ [] →
      exec (.bqPush b) s = .next s) ∧
    (∀ b, s.host.state = .init ∨ s.host.state = .app ∨ (s.sc.busy = false ∧ s.rxHold = []) →
      exec (.rxHold b) s = .next s) ∧
    (s.sc.busy = true ∨ s.rxHold = [] → exec .rxRelease s = .next s) ∧
    (∀ side, s.cfg.bqStaleView = false ∨ (s.bq.rdSeen = s.bq.rd ∧ s.bq.wrSeen = s.bq.wr) →
      exec (.bqSync side) s = .next s) ∧
    (s.cons.state ≠ .idle ∨ s.seenByCons = 0 ∨ (s.cfg.consOrder = .linesFirst ∧ s.rq ≠ []) →
      ∀ i ∈ [Instr.bqPop, .laAppend, .laOverflow, .laEolEmit, .laEolNoise, .rqPush], exec i s = .next s) ∧
    (head = s.cfg.newline ∨ s.la.skip = true ∨ s.la.buf.length = s.cfg.lineMax → exec .laAppend s = .next s) ∧
    (head = s.cfg.newline ∨ (s.la.skip = false ∧ s.la.buf.length ≠ s.cfg.lineMax) → exec .laOverflow s = .next s) ∧
    (head ≠ s.cfg.newline ∨ s.la.skip = true ∨ s.la.buf.head? ≠ some s.cfg.marker →
      exec .laEolEmit s = .next s ∧ exec .rqPush s = .next s) ∧
    (head ≠ s.cfg.newline ∨ (s.la.skip = false ∧ s.la.buf.head? = some s.cfg.marker) →
      exec .laEolNoise s = .next s) ∧
    (s.cons.state ≠ .idle ∨ s.rq = [] ∨ (s.cfg.consOrder = .bytesFirst ∧ 0 < s.seenByCons) →
      ∀ text, ∀ i ∈ [Instr.rqPop, .parse, .weRecord, .weEnd, .recData16 text, .recData24 text, .recData32 text,
        .recEnd32 text, .recEnd24 text, .recEnd16 text, .recOther text], exec i s = .next s) ∧
    (∀ text d i, (d, i) ∈ [(s.cfg.kinds.data16, Instr.recData16 text), (s.cfg.kinds.data24, .recData24 text),
        (s.cfg.kinds.data32, .recData32 text), (s.cfg.kinds.end32, .recEnd32 text), (s.cfg.kinds.end24, .recEnd24 text),
        (s.cfg.kinds.end16, .recEnd16 text)] →
      s.rq.head? ≠ some (s.cfg.marker :: d :: text) → exec i s = .next s) ∧
    (∀ line, s.rq.head? ≠ some line ∨ otherLine s.cfg line = false → exec (.recOther line) s = .next s) ∧
    (∀ line, s.rq.head? = some line → isEnd (parseLine s.cfg line).kind = false ∨ (parseLine s.cfg line).valid = false →
      exec .weEnd s = .next s) ∧
    (s.cons.state ≠ .we → ∀ i ∈ [Instr.weCaseA, .weCaseB, .weCaseC, .weSkip, .weFinish], exec i s = .next s) ∧
    (∀ st, s.sc.busy = true → s.sc.op = .eraseSector → exec (.scProgram8 st) s = .next s) ∧
    (∀ st, s.sc.busy = true → s.sc.op = .program8 → exec (.scEraseSector st) s = .next s) ∧
    (s.cons.state ≠ .erase → exec .eraseStep s = .next s) ∧
    (s.sc.busy = true ∨ s.rxHold ≠ [] → exec .sessionInit s = .next s) ∧
    (s.host.state = .idle → exec .ctlRamReady s = .next s) ∧
    (s.host.state ≠ .loop → exec .ctlRun s = .next s)

/-- After the jump no step of the ULFR is enabled except SC_DONE (spec/60_exceptions.md R285). That a step that is not
enabled answers the same state, and that SC_PROGRAM8 and SC_ERASE_SECTOR are SC_DONE steps, is log 7's. -/
def Obligations.NothingMovesAfterTheJump : Prop :=
  ∀ (s : State) (i : Instr), s.host.state = .app →
    (∀ st, i ≠ .scDone st ∧ i ≠ .scProgram8 st ∧ i ≠ .scEraseSector st) → exec i s = .next s

/-- The HOST's first steps: `H_INIT` arms reception and goes to `H_DECIDE` (spec/60_exceptions.md R280), which samples the
boot selector once and goes to `H_ERASE`, phase 0, or to `H_JUMP` (R281); nothing else changes. The selector's line is
held steady until that sample, a duty of R294: an entry of the schedule that would change it before has no move, which
is log 7's, and one that comes later sets it. That a step consumes the schedule's head is log 4's. -/
def Obligations.HostBootsOnTheSelector : Prop :=
  ∀ (s : State) (rest : List Event), s.cfg.wf = true →
    (s.sched = .hostStep :: rest →
      (s.host.state = .init → step s = .next { s with sched := rest, host := { s.host with state := .decide } }) ∧
      (s.host.state = .decide → s.host.bootSel = s.cfg.bootSelActive →
        step s = .next { s with sched := rest, host := { s.host with state := .erase, phase := 0 } }) ∧
      (s.host.state = .decide → s.host.bootSel ≠ s.cfg.bootSelActive →
        step s = .next { s with sched := rest, host := { s.host with state := .jump } })) ∧
    (∀ level, s.sched = .bootSel level :: rest →
      (s.host.state = .init ∨ s.host.state = .decide → step s = .next { s with sched := rest }) ∧
      (s.host.state ≠ .init → s.host.state ≠ .decide →
        step s = .next { s with sched := rest, host := { s.host with bootSel := level } }))

/-- The four phases of `H_ERASE` (spec/60_exceptions.md R282): CTL_RAM_READY; SESSION_INIT, held until it is enabled;
the erase request; and, once `erase_done` has come, the report READY and `H_LOOP`. That an emitted `erase_done` is kept
until this step takes it, or a newer one replaces it, is log 8's, that a step consumes the schedule's head log 4's. -/
def Obligations.HostErasePhases : Prop :=
  ∀ (s : State) (rest : List Event), s.cfg.wf = true → s.sched = .hostStep :: rest → s.host.state = .erase →
    (s.host.phase = 0 → step s = .next { s with
      sched := rest, host := { s.host with phase := 1 }, sc := { s.sc with ramReady := true } }) ∧
    (s.host.phase = 1 → s.sc.busy = false → s.rxHold = [] →
      step s = exec .sessionInit { s with sched := rest, host := { s.host with phase := 2 } }) ∧
    (s.host.phase = 1 → s.sc.busy = true ∨ s.rxHold ≠ [] → step s = .next { s with sched := rest }) ∧
    (s.host.phase = 2 → step s = exec .eraseRegion { s with sched := rest, host := { s.host with phase := 3 } }) ∧
    (∀ st, s.host.phase = 3 → s.ports.eraseDone = some st → step s = .next { s with
      sched := rest
      host := { s.host with state := .loop, report := s.host.report ++ [.ready st] }
      ports := { s.ports with eraseDone := none } }) ∧
    (s.host.phase = 3 → s.ports.eraseDone = none → step s = .next { s with sched := rest })

/-- `H_LOOP` (spec/60_exceptions.md R283): the first step is CTL_RUN; from then on each `transfer_done` is reported
DONE, one step each. That the model tells the first step by `run_enabled` is log 11's, that each output is kept and
counted until its report log 8's, that a step consumes the schedule's head log 4's. -/
def Obligations.HostLoopRunsThenReports : Prop :=
  ∀ (s : State) (rest : List Event), s.cfg.wf = true → s.sched = .hostStep :: rest → s.host.state = .loop →
    (s.cons.runEnabled = false → step s = exec .ctlRun { s with sched := rest }) ∧
    (∀ n, s.cons.runEnabled = true → s.ports.transferDone = n + 1 → step s = .next { s with
      sched := rest
      host := { s.host with report := s.host.report ++ [.done] }
      ports := { s.ports with transferDone := n } }) ∧
    (s.cons.runEnabled = true → s.ports.transferDone = 0 → step s = .next { s with sched := rest })

/-- `H_JUMP` (spec/60_exceptions.md R284 to R286): if either header word reads all ones the HOST reports IMAGE_INVALID
and is idle; otherwise it hands over, with the vector base at the image start and the two header words (in the image's
word order) as stack pointer and entry point, and is in `H_APP`. `H_IDLE` and `H_APP` have no HOST step (R287). Each of
the eight bytes is what the array holds, or what it held before a command of this launch, and which of them nothing says
(spec/20_memory.md R84): with no command completed since the reset it is the byte the array holds. The form of that
choice, and that the words are read with a command outstanding too, are log 15's; the two word orders log 14's; that a
step consumes the schedule's head log 4's. -/
def Obligations.HostChecksTheImage : Prop :=
  ∀ (s : State) (rest : List Event), s.cfg.wf = true → s.sched = .hostStep :: rest →
    (s.host.state = .jump → ∃ b : Nat → Byte,
      (∀ k < 8, ∃ m ∈ s.stor :: s.past, b k = m.read (s.cfg.regionStart + BitVec.ofNat 32 k).toNat) ∧
      ((∀ k < 4, b k = 0xFF) ∨ (∀ k < 4, b (4 + k) = 0xFF) →
        step s = .next { s with
          sched := rest, draws := s.draws + 8
          host := { s.host with state := .idle, report := s.host.report ++ [.imageInvalid] } }) ∧
      ((∃ k < 4, b k ≠ 0xFF) → (∃ k < 4, b (4 + k) ≠ 0xFF) →
        step s = .next { s with
          sched := rest, draws := s.draws + 8
          host := { s.host with
            state := .app
            handoff := some {
              vectorBase := s.cfg.regionStart
              stackPointer := headerWord s.cfg (b 0) (b 1) (b 2) (b 3)
              entryPoint := headerWord s.cfg (b 4) (b 5) (b 6) (b 7) } } })) ∧
    (s.host.state = .idle ∨ s.host.state = .app → step s = .next { s with sched := rest })

/-- An external reset (spec/70_reset_and_hazards.md R301): a new launch in the power-on state (R300) with the storage
carried over; of an interrupted command every byte of the target is drawn, each by the next draw of the run, which is
log 6's, and every byte outside is unchanged. The selector's level is the environment's (spec/10_state.md R48); that the
configuration and the schedule go on is log 4's. -/
def Obligations.ExternalResetRelaunches : Prop :=
  ∀ (s : State) (level : Bool) (rest : List Event), s.cfg.wf = true → s.sched = .externalReset level :: rest →
    (s.sc.busy = false → step s = .next (State.powerOn s.cfg level s.stor s.draws rest)) ∧
    (s.sc.busy = true → ∃ (m : Memory) (n : Nat),
      n = (if s.sc.op = .program8 then 8 else s.cfg.sectorSize) ∧
      step s = .next (State.powerOn s.cfg level m (s.draws + n) rest) ∧
      (s.StorageInv → ∀ k < n, m.read (s.sc.addr + BitVec.ofNat 32 k).toNat = Config.drawByte (s.draws + k)) ∧
      ∀ a : Addr, n ≤ (a - s.sc.addr).toNat → m.read a.toNat = s.stor.read a.toNat)

/-- Every power-on state of a configuration the model runs meets all the invariants (spec/70_reset_and_hazards.md R300,
spec/10_state.md R48), whatever canonical content the storage has; so does the reset state. -/
def Obligations.PowerOnMeetsTheInvariants : Prop :=
  (∀ (c : Config) (level : Bool) (m : Memory) (d : Nat) (sched : List Event), c.wf = true → m.wf = true →
    (State.powerOn c level m d sched).Inv) ∧ State.reset.Inv

/-- The power-on values of the status registers (spec/10_state.md R47, R48): STATUS reads 0x28, the two region
registers their configuration, and every other index 0. -/
def Obligations.PowerOnStatusRegisters : Prop :=
  ∀ (c : Config) (level : Bool) (m : Memory) (d : Nat) (sched : List Event) (i : Byte), c.wf = true →
    (State.powerOn c level m d sched).csr i =
      if i = 0x00 then 0x28 else if i = 0x08 then c.regionStart else if i = 0x09 then c.regionLen else 0

/-- The status register set shows live state (spec/10_state.md R47): STATUS bit by bit, its CONS_STATE field in the codes
of R40 and its reserved bits 31:12 reading 0; every other register of the table its value; an index outside the table 0.
That a counter shows its low 32 bits is log 13's. The command register set (spec/30_encoding.md R107,
spec/44_storage.md R237) shows the last command: `op`, the opcode value, `addr`, and `data[i]` in bits `8i+7 : 8i`. A HOST
read changes nothing (spec/60_exceptions.md R294) but the model's own record of what was read (log 8), and consumes the
schedule's head (log 4); a read of storage gives the byte that the array holds or held before a command of this launch,
and which of them nothing says (spec/20_memory.md R84, log 15), or is refused while a command is outstanding, which
spec/44_storage.md R244 allows (log 9). -/
def Obligations.RegistersShowLiveState : Prop :=
  ∀ s : State,
    ((s.csr 0).getLsbD 0 = s.pm.valid ∧ (s.csr 0).getLsbD 1 = s.sc.busy ∧ (s.csr 0).getLsbD 2 = s.sc.fail ∧
      (s.csr 0).getLsbD 3 = decide (s.bqCount = 0) ∧ (s.csr 0).getLsbD 4 = decide (s.bqCount = s.cfg.bqCap) ∧
      (s.csr 0).getLsbD 5 = decide (s.rq.length = 0) ∧ (s.csr 0).getLsbD 6 = decide (s.rq.length = s.cfg.rqCap) ∧
      (s.csr 0).getLsbD 7 = s.sc.ramReady ∧
      (∀ code c, (code, c) ∈ [(0, ConsState.off), (1, .idle), (2, .we), (3, .wait), (4, .erase), (5, .fault)] →
        s.cons.state = c → ((s.csr 0).toNat / 2 ^ 8) % 2 ^ 3 = code) ∧
      (s.csr 0).getLsbD 11 = s.faultNoRam ∧ ∀ k, 12 ≤ k → (s.csr 0).getLsbD k = false) ∧
    (s.csr 0x01 = BitVec.ofNat 32 s.bqCount ∧ s.csr 0x02 = BitVec.ofNat 32 s.rq.length ∧
      s.csr 0x03 = BitVec.ofNat 32 s.la.buf.length ∧ (s.csr 0x04).toNat = s.lastErr.toNat ∧
      s.csr 0x05 = (if s.pm.valid = true then s.pm.base else 0) ∧
      (s.pm.valid = true → ∀ k < 4,
        (s.csr 0x06).toNat / 2 ^ (8 * k) % 256 =
          ([s.pm.low4.b0, s.pm.low4.b1, s.pm.low4.b2, s.pm.low4.b3].getD k 0).toNat) ∧
      (s.pm.valid = false → s.csr 0x06 = 0) ∧
      s.csr 0x07 = (if s.faultNoRam = true then 1 else 0) ∧
      s.csr 0x08 = s.cfg.regionStart ∧ s.csr 0x09 = s.cfg.regionLen) ∧
    (s.csr 0x10 = BitVec.ofNat 32 s.cnt.bqDrop ∧ s.csr 0x11 = BitVec.ofNat 32 s.cnt.lineOverflow ∧
      s.csr 0x12 = BitVec.ofNat 32 s.cnt.lineNoise ∧ s.csr 0x13 = BitVec.ofNat 32 s.cnt.rqDrop ∧
      s.csr 0x14 = BitVec.ofNat 32 s.cnt.hexErr ∧ s.csr 0x15 = BitVec.ofNat 32 s.cnt.lenErr ∧
      s.csr 0x16 = BitVec.ofNat 32 s.cnt.cksumFail ∧ s.csr 0x17 = BitVec.ofNat 32 s.cnt.recOther ∧
      s.csr 0x18 = BitVec.ofNat 32 s.cnt.outOfRegion ∧ s.csr 0x19 = BitVec.ofNat 32 s.cnt.bytesUnhandled ∧
      s.csr 0x1A = BitVec.ofNat 32 s.cnt.mergeLost ∧ s.csr 0x1B = BitVec.ofNat 32 s.cnt.storageFail ∧
      s.csr 0x1C = BitVec.ofNat 32 s.cnt.rxLost ∧ s.csr 0x1D = BitVec.ofNat 32 s.cnt.lines ∧
      s.csr 0x1E = BitVec.ofNat 32 s.cnt.dataRec ∧ s.csr 0x1F = BitVec.ofNat 32 s.cnt.endRec ∧
      s.csr 0x20 = BitVec.ofNat 32 s.cnt.prog ∧ s.csr 0x21 = BitVec.ofNat 32 s.cnt.erase) ∧
    (∀ i : Byte, 0x0A ≤ i.toNat ∧ i.toNat ≤ 0x0F ∨ 0x22 ≤ i.toNat → s.csr i = 0) ∧
    ((s.sc.op = .program8 → s.commandRegisters.op = 0 ∧ s.commandRegisters.opcode = s.cfg.scOpcProgram8) ∧
      (s.sc.op = .eraseSector → s.commandRegisters.op = 1 ∧ s.commandRegisters.opcode = s.cfg.scOpcErase) ∧
      s.commandRegisters.addr = s.sc.addr ∧
      ∀ k < 8, s.commandRegisters.data.toNat / 2 ^ (8 * k) % 256 =
        ([s.sc.data.lo.b0, s.sc.data.lo.b1, s.sc.data.lo.b2, s.sc.data.lo.b3,
          s.sc.data.hi.b0, s.sc.data.hi.b1, s.sc.data.hi.b2, s.sc.data.hi.b3].getD k 0).toNat) ∧
    (∀ rest, s.cfg.wf = true →
      (∀ i, s.sched = .csrRead i :: rest →
        step s = .next { s with sched := rest, reads := s.reads ++ [.csr i (s.csr i)] }) ∧
      (∀ a, s.sched = .storRead a :: rest →
        (s.sc.busy = false → ∃ m ∈ s.stor :: s.past,
          step s = .next { s with
            sched := rest, reads := s.reads ++ [.stor a (m.read a.toNat)], draws := s.draws + 1 }) ∧
        (s.sc.busy = true →
          step s = .next { s with sched := rest, refused := some .storageReadBusy })))

/-- The window test (spec/20_memory.md R62): with the source's sector size, a phrase at an 8-aligned base is in the
window exactly when its base is. -/
def Obligations.PhraseIsInTheWindowWithItsBase : Prop :=
  ∀ (c : Config) (base : Addr), c.wf = true → c.sectorSize = 4096 → base.toNat % 8 = 0 →
    (phraseInWindow c base = true ↔
      c.regionStart.toNat ≤ base.toNat ∧ base.toNat < c.regionStart.toNat + c.regionLen.toNat)
end

