-- ==== Sys2Proof/Laws/State.lean ====
section
/-! SUPPORT. One lemma per field of State per named update: what the update leaves and what it writes. -/

namespace Sys2Proof.Machine

@[simp] theorem State.countBy_cfg (s : State) (id : CounterId) (k : Nat) : (s.countBy id k).cfg = s.cfg := rfl
@[simp] theorem State.countBy_bq (s : State) (id : CounterId) (k : Nat) : (s.countBy id k).bq = s.bq := rfl
@[simp] theorem State.countBy_rxHold (s : State) (id : CounterId) (k : Nat) : (s.countBy id k).rxHold = s.rxHold := rfl
@[simp] theorem State.countBy_la (s : State) (id : CounterId) (k : Nat) : (s.countBy id k).la = s.la := rfl
@[simp] theorem State.countBy_rq (s : State) (id : CounterId) (k : Nat) : (s.countBy id k).rq = s.rq := rfl
@[simp] theorem State.countBy_pm (s : State) (id : CounterId) (k : Nat) : (s.countBy id k).pm = s.pm := rfl
@[simp] theorem State.countBy_we (s : State) (id : CounterId) (k : Nat) : (s.countBy id k).we = s.we := rfl
@[simp] theorem State.countBy_sc (s : State) (id : CounterId) (k : Nat) : (s.countBy id k).sc = s.sc := rfl
@[simp] theorem State.countBy_cons (s : State) (id : CounterId) (k : Nat) : (s.countBy id k).cons = s.cons := rfl
@[simp] theorem State.countBy_cnt (s : State) (id : CounterId) (k : Nat) : (s.countBy id k).cnt = s.cnt.set id (satAdd s.cfg (s.cnt.get id) k) := rfl
@[simp] theorem State.countBy_lastErr (s : State) (id : CounterId) (k : Nat) : (s.countBy id k).lastErr = s.lastErr := rfl
@[simp] theorem State.countBy_faultNoRam (s : State) (id : CounterId) (k : Nat) : (s.countBy id k).faultNoRam = s.faultNoRam := rfl
@[simp] theorem State.countBy_refused (s : State) (id : CounterId) (k : Nat) : (s.countBy id k).refused = s.refused := rfl
@[simp] theorem State.countBy_stor (s : State) (id : CounterId) (k : Nat) : (s.countBy id k).stor = s.stor := rfl
@[simp] theorem State.countBy_past (s : State) (id : CounterId) (k : Nat) : (s.countBy id k).past = s.past := rfl
@[simp] theorem State.countBy_host (s : State) (id : CounterId) (k : Nat) : (s.countBy id k).host = s.host := rfl
@[simp] theorem State.countBy_ports (s : State) (id : CounterId) (k : Nat) : (s.countBy id k).ports = s.ports := rfl
@[simp] theorem State.countBy_reads (s : State) (id : CounterId) (k : Nat) : (s.countBy id k).reads = s.reads := rfl
@[simp] theorem State.countBy_draws (s : State) (id : CounterId) (k : Nat) : (s.countBy id k).draws = s.draws := rfl
@[simp] theorem State.countBy_sched (s : State) (id : CounterId) (k : Nat) : (s.countBy id k).sched = s.sched := rfl

@[simp] theorem State.count_cfg (s : State) (id : CounterId) : (s.count id).cfg = s.cfg := rfl
@[simp] theorem State.count_bq (s : State) (id : CounterId) : (s.count id).bq = s.bq := rfl
@[simp] theorem State.count_rxHold (s : State) (id : CounterId) : (s.count id).rxHold = s.rxHold := rfl
@[simp] theorem State.count_la (s : State) (id : CounterId) : (s.count id).la = s.la := rfl
@[simp] theorem State.count_rq (s : State) (id : CounterId) : (s.count id).rq = s.rq := rfl
@[simp] theorem State.count_pm (s : State) (id : CounterId) : (s.count id).pm = s.pm := rfl
@[simp] theorem State.count_we (s : State) (id : CounterId) : (s.count id).we = s.we := rfl
@[simp] theorem State.count_sc (s : State) (id : CounterId) : (s.count id).sc = s.sc := rfl
@[simp] theorem State.count_cons (s : State) (id : CounterId) : (s.count id).cons = s.cons := rfl
@[simp] theorem State.count_cnt (s : State) (id : CounterId) : (s.count id).cnt = s.cnt.set id (satAdd s.cfg (s.cnt.get id) 1) := rfl
@[simp] theorem State.count_lastErr (s : State) (id : CounterId) : (s.count id).lastErr = s.lastErr := rfl
@[simp] theorem State.count_faultNoRam (s : State) (id : CounterId) : (s.count id).faultNoRam = s.faultNoRam := rfl
@[simp] theorem State.count_refused (s : State) (id : CounterId) : (s.count id).refused = s.refused := rfl
@[simp] theorem State.count_stor (s : State) (id : CounterId) : (s.count id).stor = s.stor := rfl
@[simp] theorem State.count_past (s : State) (id : CounterId) : (s.count id).past = s.past := rfl
@[simp] theorem State.count_host (s : State) (id : CounterId) : (s.count id).host = s.host := rfl
@[simp] theorem State.count_ports (s : State) (id : CounterId) : (s.count id).ports = s.ports := rfl
@[simp] theorem State.count_reads (s : State) (id : CounterId) : (s.count id).reads = s.reads := rfl
@[simp] theorem State.count_draws (s : State) (id : CounterId) : (s.count id).draws = s.draws := rfl
@[simp] theorem State.count_sched (s : State) (id : CounterId) : (s.count id).sched = s.sched := rfl

@[simp] theorem State.raiseBy_cfg (s : State) (e : ErrorEvent) (k : Nat) : (s.raiseBy e k).cfg = s.cfg := rfl
@[simp] theorem State.raiseBy_bq (s : State) (e : ErrorEvent) (k : Nat) : (s.raiseBy e k).bq = s.bq := rfl
@[simp] theorem State.raiseBy_rxHold (s : State) (e : ErrorEvent) (k : Nat) : (s.raiseBy e k).rxHold = s.rxHold := rfl
@[simp] theorem State.raiseBy_la (s : State) (e : ErrorEvent) (k : Nat) : (s.raiseBy e k).la = s.la := rfl
@[simp] theorem State.raiseBy_rq (s : State) (e : ErrorEvent) (k : Nat) : (s.raiseBy e k).rq = s.rq := rfl
@[simp] theorem State.raiseBy_pm (s : State) (e : ErrorEvent) (k : Nat) : (s.raiseBy e k).pm = s.pm := rfl
@[simp] theorem State.raiseBy_we (s : State) (e : ErrorEvent) (k : Nat) : (s.raiseBy e k).we = s.we := rfl
@[simp] theorem State.raiseBy_sc (s : State) (e : ErrorEvent) (k : Nat) : (s.raiseBy e k).sc = s.sc := rfl
@[simp] theorem State.raiseBy_cons (s : State) (e : ErrorEvent) (k : Nat) : (s.raiseBy e k).cons = s.cons := rfl
@[simp] theorem State.raiseBy_cnt (s : State) (e : ErrorEvent) (k : Nat) : (s.raiseBy e k).cnt = s.cnt.set e.counter (satAdd s.cfg (s.cnt.get e.counter) k) := rfl
@[simp] theorem State.raiseBy_lastErr (s : State) (e : ErrorEvent) (k : Nat) : (s.raiseBy e k).lastErr = if e.isNote then s.lastErr else e.code := rfl
@[simp] theorem State.raiseBy_faultNoRam (s : State) (e : ErrorEvent) (k : Nat) : (s.raiseBy e k).faultNoRam = s.faultNoRam := rfl
@[simp] theorem State.raiseBy_refused (s : State) (e : ErrorEvent) (k : Nat) : (s.raiseBy e k).refused = s.refused := rfl
@[simp] theorem State.raiseBy_stor (s : State) (e : ErrorEvent) (k : Nat) : (s.raiseBy e k).stor = s.stor := rfl
@[simp] theorem State.raiseBy_past (s : State) (e : ErrorEvent) (k : Nat) : (s.raiseBy e k).past = s.past := rfl
@[simp] theorem State.raiseBy_host (s : State) (e : ErrorEvent) (k : Nat) : (s.raiseBy e k).host = s.host := rfl
@[simp] theorem State.raiseBy_ports (s : State) (e : ErrorEvent) (k : Nat) : (s.raiseBy e k).ports = s.ports := rfl
@[simp] theorem State.raiseBy_reads (s : State) (e : ErrorEvent) (k : Nat) : (s.raiseBy e k).reads = s.reads := rfl
@[simp] theorem State.raiseBy_draws (s : State) (e : ErrorEvent) (k : Nat) : (s.raiseBy e k).draws = s.draws := rfl
@[simp] theorem State.raiseBy_sched (s : State) (e : ErrorEvent) (k : Nat) : (s.raiseBy e k).sched = s.sched := rfl

@[simp] theorem State.raise_cfg (s : State) (e : ErrorEvent) : (s.raise e).cfg = s.cfg := rfl
@[simp] theorem State.raise_bq (s : State) (e : ErrorEvent) : (s.raise e).bq = s.bq := rfl
@[simp] theorem State.raise_rxHold (s : State) (e : ErrorEvent) : (s.raise e).rxHold = s.rxHold := rfl
@[simp] theorem State.raise_la (s : State) (e : ErrorEvent) : (s.raise e).la = s.la := rfl
@[simp] theorem State.raise_rq (s : State) (e : ErrorEvent) : (s.raise e).rq = s.rq := rfl
@[simp] theorem State.raise_pm (s : State) (e : ErrorEvent) : (s.raise e).pm = s.pm := rfl
@[simp] theorem State.raise_we (s : State) (e : ErrorEvent) : (s.raise e).we = s.we := rfl
@[simp] theorem State.raise_sc (s : State) (e : ErrorEvent) : (s.raise e).sc = s.sc := rfl
@[simp] theorem State.raise_cons (s : State) (e : ErrorEvent) : (s.raise e).cons = s.cons := rfl
@[simp] theorem State.raise_cnt (s : State) (e : ErrorEvent) : (s.raise e).cnt = s.cnt.set e.counter (satAdd s.cfg (s.cnt.get e.counter) 1) := rfl
@[simp] theorem State.raise_lastErr (s : State) (e : ErrorEvent) : (s.raise e).lastErr = if e.isNote then s.lastErr else e.code := rfl
@[simp] theorem State.raise_faultNoRam (s : State) (e : ErrorEvent) : (s.raise e).faultNoRam = s.faultNoRam := rfl
@[simp] theorem State.raise_refused (s : State) (e : ErrorEvent) : (s.raise e).refused = s.refused := rfl
@[simp] theorem State.raise_stor (s : State) (e : ErrorEvent) : (s.raise e).stor = s.stor := rfl
@[simp] theorem State.raise_past (s : State) (e : ErrorEvent) : (s.raise e).past = s.past := rfl
@[simp] theorem State.raise_host (s : State) (e : ErrorEvent) : (s.raise e).host = s.host := rfl
@[simp] theorem State.raise_ports (s : State) (e : ErrorEvent) : (s.raise e).ports = s.ports := rfl
@[simp] theorem State.raise_reads (s : State) (e : ErrorEvent) : (s.raise e).reads = s.reads := rfl
@[simp] theorem State.raise_draws (s : State) (e : ErrorEvent) : (s.raise e).draws = s.draws := rfl
@[simp] theorem State.raise_sched (s : State) (e : ErrorEvent) : (s.raise e).sched = s.sched := rfl

@[simp] theorem State.refuse_cfg (s : State) (r : RefuseReason) : (s.refuse r).cfg = s.cfg := rfl
@[simp] theorem State.refuse_bq (s : State) (r : RefuseReason) : (s.refuse r).bq = s.bq := rfl
@[simp] theorem State.refuse_rxHold (s : State) (r : RefuseReason) : (s.refuse r).rxHold = s.rxHold := rfl
@[simp] theorem State.refuse_la (s : State) (r : RefuseReason) : (s.refuse r).la = s.la := rfl
@[simp] theorem State.refuse_rq (s : State) (r : RefuseReason) : (s.refuse r).rq = s.rq := rfl
@[simp] theorem State.refuse_pm (s : State) (r : RefuseReason) : (s.refuse r).pm = s.pm := rfl
@[simp] theorem State.refuse_we (s : State) (r : RefuseReason) : (s.refuse r).we = s.we := rfl
@[simp] theorem State.refuse_sc (s : State) (r : RefuseReason) : (s.refuse r).sc = s.sc := rfl
@[simp] theorem State.refuse_cons (s : State) (r : RefuseReason) : (s.refuse r).cons = s.cons := rfl
@[simp] theorem State.refuse_cnt (s : State) (r : RefuseReason) : (s.refuse r).cnt = s.cnt := rfl
@[simp] theorem State.refuse_lastErr (s : State) (r : RefuseReason) : (s.refuse r).lastErr = s.lastErr := rfl
@[simp] theorem State.refuse_faultNoRam (s : State) (r : RefuseReason) : (s.refuse r).faultNoRam = s.faultNoRam := rfl
@[simp] theorem State.refuse_refused (s : State) (r : RefuseReason) : (s.refuse r).refused = some r := rfl
@[simp] theorem State.refuse_stor (s : State) (r : RefuseReason) : (s.refuse r).stor = s.stor := rfl
@[simp] theorem State.refuse_past (s : State) (r : RefuseReason) : (s.refuse r).past = s.past := rfl
@[simp] theorem State.refuse_host (s : State) (r : RefuseReason) : (s.refuse r).host = s.host := rfl
@[simp] theorem State.refuse_ports (s : State) (r : RefuseReason) : (s.refuse r).ports = s.ports := rfl
@[simp] theorem State.refuse_reads (s : State) (r : RefuseReason) : (s.refuse r).reads = s.reads := rfl
@[simp] theorem State.refuse_draws (s : State) (r : RefuseReason) : (s.refuse r).draws = s.draws := rfl
@[simp] theorem State.refuse_sched (s : State) (r : RefuseReason) : (s.refuse r).sched = s.sched := rfl

@[simp] theorem State.emitCommand_cfg (s : State) (op : StorageOp) (addr : Addr) (data : Phrase) : (s.emitCommand op addr data).cfg = s.cfg := rfl
@[simp] theorem State.emitCommand_bq (s : State) (op : StorageOp) (addr : Addr) (data : Phrase) : (s.emitCommand op addr data).bq = s.bq := rfl
@[simp] theorem State.emitCommand_rxHold (s : State) (op : StorageOp) (addr : Addr) (data : Phrase) : (s.emitCommand op addr data).rxHold = s.rxHold := rfl
@[simp] theorem State.emitCommand_la (s : State) (op : StorageOp) (addr : Addr) (data : Phrase) : (s.emitCommand op addr data).la = s.la := rfl
@[simp] theorem State.emitCommand_rq (s : State) (op : StorageOp) (addr : Addr) (data : Phrase) : (s.emitCommand op addr data).rq = s.rq := rfl
@[simp] theorem State.emitCommand_pm (s : State) (op : StorageOp) (addr : Addr) (data : Phrase) : (s.emitCommand op addr data).pm = s.pm := rfl
@[simp] theorem State.emitCommand_we (s : State) (op : StorageOp) (addr : Addr) (data : Phrase) : (s.emitCommand op addr data).we = s.we := rfl
@[simp] theorem State.emitCommand_sc (s : State) (op : StorageOp) (addr : Addr) (data : Phrase) : (s.emitCommand op addr data).sc = s.sc := rfl
@[simp] theorem State.emitCommand_cons (s : State) (op : StorageOp) (addr : Addr) (data : Phrase) : (s.emitCommand op addr data).cons = s.cons := rfl
@[simp] theorem State.emitCommand_cnt (s : State) (op : StorageOp) (addr : Addr) (data : Phrase) : (s.emitCommand op addr data).cnt = s.cnt := rfl
@[simp] theorem State.emitCommand_lastErr (s : State) (op : StorageOp) (addr : Addr) (data : Phrase) : (s.emitCommand op addr data).lastErr = s.lastErr := rfl
@[simp] theorem State.emitCommand_faultNoRam (s : State) (op : StorageOp) (addr : Addr) (data : Phrase) : (s.emitCommand op addr data).faultNoRam = s.faultNoRam := rfl
@[simp] theorem State.emitCommand_refused (s : State) (op : StorageOp) (addr : Addr) (data : Phrase) : (s.emitCommand op addr data).refused = s.refused := rfl
@[simp] theorem State.emitCommand_stor (s : State) (op : StorageOp) (addr : Addr) (data : Phrase) : (s.emitCommand op addr data).stor = s.stor := rfl
@[simp] theorem State.emitCommand_past (s : State) (op : StorageOp) (addr : Addr) (data : Phrase) : (s.emitCommand op addr data).past = s.past := rfl
@[simp] theorem State.emitCommand_host (s : State) (op : StorageOp) (addr : Addr) (data : Phrase) : (s.emitCommand op addr data).host = s.host := rfl
@[simp] theorem State.emitCommand_ports (s : State) (op : StorageOp) (addr : Addr) (data : Phrase) : (s.emitCommand op addr data).ports = { s.ports with emitted := s.ports.emitted ++ [.scCmd op addr data] } := rfl
@[simp] theorem State.emitCommand_reads (s : State) (op : StorageOp) (addr : Addr) (data : Phrase) : (s.emitCommand op addr data).reads = s.reads := rfl
@[simp] theorem State.emitCommand_draws (s : State) (op : StorageOp) (addr : Addr) (data : Phrase) : (s.emitCommand op addr data).draws = s.draws := rfl
@[simp] theorem State.emitCommand_sched (s : State) (op : StorageOp) (addr : Addr) (data : Phrase) : (s.emitCommand op addr data).sched = s.sched := rfl

@[simp] theorem State.emitEraseDone_cfg (s : State) (st : Status) : (s.emitEraseDone st).cfg = s.cfg := rfl
@[simp] theorem State.emitEraseDone_bq (s : State) (st : Status) : (s.emitEraseDone st).bq = s.bq := rfl
@[simp] theorem State.emitEraseDone_rxHold (s : State) (st : Status) : (s.emitEraseDone st).rxHold = s.rxHold := rfl
@[simp] theorem State.emitEraseDone_la (s : State) (st : Status) : (s.emitEraseDone st).la = s.la := rfl
@[simp] theorem State.emitEraseDone_rq (s : State) (st : Status) : (s.emitEraseDone st).rq = s.rq := rfl
@[simp] theorem State.emitEraseDone_pm (s : State) (st : Status) : (s.emitEraseDone st).pm = s.pm := rfl
@[simp] theorem State.emitEraseDone_we (s : State) (st : Status) : (s.emitEraseDone st).we = s.we := rfl
@[simp] theorem State.emitEraseDone_sc (s : State) (st : Status) : (s.emitEraseDone st).sc = s.sc := rfl
@[simp] theorem State.emitEraseDone_cons (s : State) (st : Status) : (s.emitEraseDone st).cons = s.cons := rfl
@[simp] theorem State.emitEraseDone_cnt (s : State) (st : Status) : (s.emitEraseDone st).cnt = s.cnt := rfl
@[simp] theorem State.emitEraseDone_lastErr (s : State) (st : Status) : (s.emitEraseDone st).lastErr = s.lastErr := rfl
@[simp] theorem State.emitEraseDone_faultNoRam (s : State) (st : Status) : (s.emitEraseDone st).faultNoRam = s.faultNoRam := rfl
@[simp] theorem State.emitEraseDone_refused (s : State) (st : Status) : (s.emitEraseDone st).refused = s.refused := rfl
@[simp] theorem State.emitEraseDone_stor (s : State) (st : Status) : (s.emitEraseDone st).stor = s.stor := rfl
@[simp] theorem State.emitEraseDone_past (s : State) (st : Status) : (s.emitEraseDone st).past = s.past := rfl
@[simp] theorem State.emitEraseDone_host (s : State) (st : Status) : (s.emitEraseDone st).host = s.host := rfl
@[simp] theorem State.emitEraseDone_ports (s : State) (st : Status) : (s.emitEraseDone st).ports = { s.ports with emitted := s.ports.emitted ++ [.eraseDone st], eraseDone := some st } := rfl
@[simp] theorem State.emitEraseDone_reads (s : State) (st : Status) : (s.emitEraseDone st).reads = s.reads := rfl
@[simp] theorem State.emitEraseDone_draws (s : State) (st : Status) : (s.emitEraseDone st).draws = s.draws := rfl
@[simp] theorem State.emitEraseDone_sched (s : State) (st : Status) : (s.emitEraseDone st).sched = s.sched := rfl

@[simp] theorem State.emitTransferDone_cfg (s : State) : s.emitTransferDone.cfg = s.cfg := rfl
@[simp] theorem State.emitTransferDone_bq (s : State) : s.emitTransferDone.bq = s.bq := rfl
@[simp] theorem State.emitTransferDone_rxHold (s : State) : s.emitTransferDone.rxHold = s.rxHold := rfl
@[simp] theorem State.emitTransferDone_la (s : State) : s.emitTransferDone.la = s.la := rfl
@[simp] theorem State.emitTransferDone_rq (s : State) : s.emitTransferDone.rq = s.rq := rfl
@[simp] theorem State.emitTransferDone_pm (s : State) : s.emitTransferDone.pm = s.pm := rfl
@[simp] theorem State.emitTransferDone_we (s : State) : s.emitTransferDone.we = s.we := rfl
@[simp] theorem State.emitTransferDone_sc (s : State) : s.emitTransferDone.sc = s.sc := rfl
@[simp] theorem State.emitTransferDone_cons (s : State) : s.emitTransferDone.cons = s.cons := rfl
@[simp] theorem State.emitTransferDone_cnt (s : State) : s.emitTransferDone.cnt = s.cnt := rfl
@[simp] theorem State.emitTransferDone_lastErr (s : State) : s.emitTransferDone.lastErr = s.lastErr := rfl
@[simp] theorem State.emitTransferDone_faultNoRam (s : State) : s.emitTransferDone.faultNoRam = s.faultNoRam := rfl
@[simp] theorem State.emitTransferDone_refused (s : State) : s.emitTransferDone.refused = s.refused := rfl
@[simp] theorem State.emitTransferDone_stor (s : State) : s.emitTransferDone.stor = s.stor := rfl
@[simp] theorem State.emitTransferDone_past (s : State) : s.emitTransferDone.past = s.past := rfl
@[simp] theorem State.emitTransferDone_host (s : State) : s.emitTransferDone.host = s.host := rfl
@[simp] theorem State.emitTransferDone_ports (s : State) : s.emitTransferDone.ports = { s.ports with emitted := s.ports.emitted ++ [.transferDone], transferDone := s.ports.transferDone + 1 } := rfl
@[simp] theorem State.emitTransferDone_reads (s : State) : s.emitTransferDone.reads = s.reads := rfl
@[simp] theorem State.emitTransferDone_draws (s : State) : s.emitTransferDone.draws = s.draws := rfl
@[simp] theorem State.emitTransferDone_sched (s : State) : s.emitTransferDone.sched = s.sched := rfl

@[simp] theorem State.drawStorage_cfg (s : State) (a : Addr) (n : Nat) : (s.drawStorage a n).cfg = s.cfg := rfl
@[simp] theorem State.drawStorage_bq (s : State) (a : Addr) (n : Nat) : (s.drawStorage a n).bq = s.bq := rfl
@[simp] theorem State.drawStorage_rxHold (s : State) (a : Addr) (n : Nat) : (s.drawStorage a n).rxHold = s.rxHold := rfl
@[simp] theorem State.drawStorage_la (s : State) (a : Addr) (n : Nat) : (s.drawStorage a n).la = s.la := rfl
@[simp] theorem State.drawStorage_rq (s : State) (a : Addr) (n : Nat) : (s.drawStorage a n).rq = s.rq := rfl
@[simp] theorem State.drawStorage_pm (s : State) (a : Addr) (n : Nat) : (s.drawStorage a n).pm = s.pm := rfl
@[simp] theorem State.drawStorage_we (s : State) (a : Addr) (n : Nat) : (s.drawStorage a n).we = s.we := rfl
@[simp] theorem State.drawStorage_sc (s : State) (a : Addr) (n : Nat) : (s.drawStorage a n).sc = s.sc := rfl
@[simp] theorem State.drawStorage_cons (s : State) (a : Addr) (n : Nat) : (s.drawStorage a n).cons = s.cons := rfl
@[simp] theorem State.drawStorage_cnt (s : State) (a : Addr) (n : Nat) : (s.drawStorage a n).cnt = s.cnt := rfl
@[simp] theorem State.drawStorage_lastErr (s : State) (a : Addr) (n : Nat) : (s.drawStorage a n).lastErr = s.lastErr := rfl
@[simp] theorem State.drawStorage_faultNoRam (s : State) (a : Addr) (n : Nat) : (s.drawStorage a n).faultNoRam = s.faultNoRam := rfl
@[simp] theorem State.drawStorage_refused (s : State) (a : Addr) (n : Nat) : (s.drawStorage a n).refused = s.refused := rfl
@[simp] theorem State.drawStorage_stor (s : State) (a : Addr) (n : Nat) : (s.drawStorage a n).stor = s.stor.writeBytes a (drawBytes s.draws n) := rfl
@[simp] theorem State.drawStorage_past (s : State) (a : Addr) (n : Nat) : (s.drawStorage a n).past = s.past := rfl
@[simp] theorem State.drawStorage_host (s : State) (a : Addr) (n : Nat) : (s.drawStorage a n).host = s.host := rfl
@[simp] theorem State.drawStorage_ports (s : State) (a : Addr) (n : Nat) : (s.drawStorage a n).ports = s.ports := rfl
@[simp] theorem State.drawStorage_reads (s : State) (a : Addr) (n : Nat) : (s.drawStorage a n).reads = s.reads := rfl
@[simp] theorem State.drawStorage_draws (s : State) (a : Addr) (n : Nat) : (s.drawStorage a n).draws = s.draws + n := rfl
@[simp] theorem State.drawStorage_sched (s : State) (a : Addr) (n : Nat) : (s.drawStorage a n).sched = s.sched := rfl

@[simp] theorem State.takeByte_cfg (s : State) : s.takeByte.cfg = s.cfg := rfl
@[simp] theorem State.takeByte_bq (s : State) : s.takeByte.bq = { s.bq with rd := nextIndex s.cfg.bqCap s.bq.rd } := rfl
@[simp] theorem State.takeByte_rxHold (s : State) : s.takeByte.rxHold = s.rxHold := rfl
@[simp] theorem State.takeByte_la (s : State) : s.takeByte.la = s.la := rfl
@[simp] theorem State.takeByte_rq (s : State) : s.takeByte.rq = s.rq := rfl
@[simp] theorem State.takeByte_pm (s : State) : s.takeByte.pm = s.pm := rfl
@[simp] theorem State.takeByte_we (s : State) : s.takeByte.we = s.we := rfl
@[simp] theorem State.takeByte_sc (s : State) : s.takeByte.sc = s.sc := rfl
@[simp] theorem State.takeByte_cons (s : State) : s.takeByte.cons = s.cons := rfl
@[simp] theorem State.takeByte_cnt (s : State) : s.takeByte.cnt = s.cnt := rfl
@[simp] theorem State.takeByte_lastErr (s : State) : s.takeByte.lastErr = s.lastErr := rfl
@[simp] theorem State.takeByte_faultNoRam (s : State) : s.takeByte.faultNoRam = s.faultNoRam := rfl
@[simp] theorem State.takeByte_refused (s : State) : s.takeByte.refused = s.refused := rfl
@[simp] theorem State.takeByte_stor (s : State) : s.takeByte.stor = s.stor := rfl
@[simp] theorem State.takeByte_past (s : State) : s.takeByte.past = s.past := rfl
@[simp] theorem State.takeByte_host (s : State) : s.takeByte.host = s.host := rfl
@[simp] theorem State.takeByte_ports (s : State) : s.takeByte.ports = s.ports := rfl
@[simp] theorem State.takeByte_reads (s : State) : s.takeByte.reads = s.reads := rfl
@[simp] theorem State.takeByte_draws (s : State) : s.takeByte.draws = s.draws := rfl
@[simp] theorem State.takeByte_sched (s : State) : s.takeByte.sched = s.sched := rfl

@[simp] theorem State.laAppend_cfg (s : State) (b : Byte) : (s.laAppend b).cfg = s.cfg := rfl
@[simp] theorem State.laAppend_bq (s : State) (b : Byte) : (s.laAppend b).bq = s.bq := rfl
@[simp] theorem State.laAppend_rxHold (s : State) (b : Byte) : (s.laAppend b).rxHold = s.rxHold := rfl
@[simp] theorem State.laAppend_la (s : State) (b : Byte) : (s.laAppend b).la = { s.la with buf := s.la.buf ++ [b] } := rfl
@[simp] theorem State.laAppend_rq (s : State) (b : Byte) : (s.laAppend b).rq = s.rq := rfl
@[simp] theorem State.laAppend_pm (s : State) (b : Byte) : (s.laAppend b).pm = s.pm := rfl
@[simp] theorem State.laAppend_we (s : State) (b : Byte) : (s.laAppend b).we = s.we := rfl
@[simp] theorem State.laAppend_sc (s : State) (b : Byte) : (s.laAppend b).sc = s.sc := rfl
@[simp] theorem State.laAppend_cons (s : State) (b : Byte) : (s.laAppend b).cons = s.cons := rfl
@[simp] theorem State.laAppend_cnt (s : State) (b : Byte) : (s.laAppend b).cnt = s.cnt := rfl
@[simp] theorem State.laAppend_lastErr (s : State) (b : Byte) : (s.laAppend b).lastErr = s.lastErr := rfl
@[simp] theorem State.laAppend_faultNoRam (s : State) (b : Byte) : (s.laAppend b).faultNoRam = s.faultNoRam := rfl
@[simp] theorem State.laAppend_refused (s : State) (b : Byte) : (s.laAppend b).refused = s.refused := rfl
@[simp] theorem State.laAppend_stor (s : State) (b : Byte) : (s.laAppend b).stor = s.stor := rfl
@[simp] theorem State.laAppend_past (s : State) (b : Byte) : (s.laAppend b).past = s.past := rfl
@[simp] theorem State.laAppend_host (s : State) (b : Byte) : (s.laAppend b).host = s.host := rfl
@[simp] theorem State.laAppend_ports (s : State) (b : Byte) : (s.laAppend b).ports = s.ports := rfl
@[simp] theorem State.laAppend_reads (s : State) (b : Byte) : (s.laAppend b).reads = s.reads := rfl
@[simp] theorem State.laAppend_draws (s : State) (b : Byte) : (s.laAppend b).draws = s.draws := rfl
@[simp] theorem State.laAppend_sched (s : State) (b : Byte) : (s.laAppend b).sched = s.sched := rfl

@[simp] theorem State.advance_cfg (s : State) (k : Nat) : (s.advance k).cfg = s.cfg := rfl
@[simp] theorem State.advance_bq (s : State) (k : Nat) : (s.advance k).bq = s.bq := rfl
@[simp] theorem State.advance_rxHold (s : State) (k : Nat) : (s.advance k).rxHold = s.rxHold := rfl
@[simp] theorem State.advance_la (s : State) (k : Nat) : (s.advance k).la = s.la := rfl
@[simp] theorem State.advance_rq (s : State) (k : Nat) : (s.advance k).rq = s.rq := rfl
@[simp] theorem State.advance_pm (s : State) (k : Nat) : (s.advance k).pm = s.pm := rfl
@[simp] theorem State.advance_we (s : State) (k : Nat) : (s.advance k).we = { addr := s.we.addr + BitVec.ofNat 32 k, data := s.we.data.drop k } := rfl
@[simp] theorem State.advance_sc (s : State) (k : Nat) : (s.advance k).sc = s.sc := rfl
@[simp] theorem State.advance_cons (s : State) (k : Nat) : (s.advance k).cons = s.cons := rfl
@[simp] theorem State.advance_cnt (s : State) (k : Nat) : (s.advance k).cnt = s.cnt := rfl
@[simp] theorem State.advance_lastErr (s : State) (k : Nat) : (s.advance k).lastErr = s.lastErr := rfl
@[simp] theorem State.advance_faultNoRam (s : State) (k : Nat) : (s.advance k).faultNoRam = s.faultNoRam := rfl
@[simp] theorem State.advance_refused (s : State) (k : Nat) : (s.advance k).refused = s.refused := rfl
@[simp] theorem State.advance_stor (s : State) (k : Nat) : (s.advance k).stor = s.stor := rfl
@[simp] theorem State.advance_past (s : State) (k : Nat) : (s.advance k).past = s.past := rfl
@[simp] theorem State.advance_host (s : State) (k : Nat) : (s.advance k).host = s.host := rfl
@[simp] theorem State.advance_ports (s : State) (k : Nat) : (s.advance k).ports = s.ports := rfl
@[simp] theorem State.advance_reads (s : State) (k : Nat) : (s.advance k).reads = s.reads := rfl
@[simp] theorem State.advance_draws (s : State) (k : Nat) : (s.advance k).draws = s.draws := rfl
@[simp] theorem State.advance_sched (s : State) (k : Nat) : (s.advance k).sched = s.sched := rfl

@[simp] theorem State.setRamReady_cfg (s : State) : s.setRamReady.cfg = s.cfg := rfl
@[simp] theorem State.setRamReady_bq (s : State) : s.setRamReady.bq = s.bq := rfl
@[simp] theorem State.setRamReady_rxHold (s : State) : s.setRamReady.rxHold = s.rxHold := rfl
@[simp] theorem State.setRamReady_la (s : State) : s.setRamReady.la = s.la := rfl
@[simp] theorem State.setRamReady_rq (s : State) : s.setRamReady.rq = s.rq := rfl
@[simp] theorem State.setRamReady_pm (s : State) : s.setRamReady.pm = s.pm := rfl
@[simp] theorem State.setRamReady_we (s : State) : s.setRamReady.we = s.we := rfl
@[simp] theorem State.setRamReady_sc (s : State) : s.setRamReady.sc = { s.sc with ramReady := true } := rfl
@[simp] theorem State.setRamReady_cons (s : State) : s.setRamReady.cons = s.cons := rfl
@[simp] theorem State.setRamReady_cnt (s : State) : s.setRamReady.cnt = s.cnt := rfl
@[simp] theorem State.setRamReady_lastErr (s : State) : s.setRamReady.lastErr = s.lastErr := rfl
@[simp] theorem State.setRamReady_faultNoRam (s : State) : s.setRamReady.faultNoRam = s.faultNoRam := rfl
@[simp] theorem State.setRamReady_refused (s : State) : s.setRamReady.refused = s.refused := rfl
@[simp] theorem State.setRamReady_stor (s : State) : s.setRamReady.stor = s.stor := rfl
@[simp] theorem State.setRamReady_past (s : State) : s.setRamReady.past = s.past := rfl
@[simp] theorem State.setRamReady_host (s : State) : s.setRamReady.host = s.host := rfl
@[simp] theorem State.setRamReady_ports (s : State) : s.setRamReady.ports = s.ports := rfl
@[simp] theorem State.setRamReady_reads (s : State) : s.setRamReady.reads = s.reads := rfl
@[simp] theorem State.setRamReady_draws (s : State) : s.setRamReady.draws = s.draws := rfl
@[simp] theorem State.setRamReady_sched (s : State) : s.setRamReady.sched = s.sched := rfl

@[simp] theorem State.enableRun_cfg (s : State) : s.enableRun.cfg = s.cfg := rfl
@[simp] theorem State.enableRun_bq (s : State) : s.enableRun.bq = s.bq := rfl
@[simp] theorem State.enableRun_rxHold (s : State) : s.enableRun.rxHold = s.rxHold := rfl
@[simp] theorem State.enableRun_la (s : State) : s.enableRun.la = s.la := rfl
@[simp] theorem State.enableRun_rq (s : State) : s.enableRun.rq = s.rq := rfl
@[simp] theorem State.enableRun_pm (s : State) : s.enableRun.pm = s.pm := rfl
@[simp] theorem State.enableRun_we (s : State) : s.enableRun.we = s.we := rfl
@[simp] theorem State.enableRun_sc (s : State) : s.enableRun.sc = s.sc := rfl
@[simp] theorem State.enableRun_cons (s : State) : s.enableRun.cons = { s.cons with runEnabled := true, state := if s.cons.state = .off then .idle else s.cons.state } := rfl
@[simp] theorem State.enableRun_cnt (s : State) : s.enableRun.cnt = s.cnt := rfl
@[simp] theorem State.enableRun_lastErr (s : State) : s.enableRun.lastErr = s.lastErr := rfl
@[simp] theorem State.enableRun_faultNoRam (s : State) : s.enableRun.faultNoRam = s.faultNoRam := rfl
@[simp] theorem State.enableRun_refused (s : State) : s.enableRun.refused = s.refused := rfl
@[simp] theorem State.enableRun_stor (s : State) : s.enableRun.stor = s.stor := rfl
@[simp] theorem State.enableRun_past (s : State) : s.enableRun.past = s.past := rfl
@[simp] theorem State.enableRun_host (s : State) : s.enableRun.host = s.host := rfl
@[simp] theorem State.enableRun_ports (s : State) : s.enableRun.ports = s.ports := rfl
@[simp] theorem State.enableRun_reads (s : State) : s.enableRun.reads = s.reads := rfl
@[simp] theorem State.enableRun_draws (s : State) : s.enableRun.draws = s.draws := rfl
@[simp] theorem State.enableRun_sched (s : State) : s.enableRun.sched = s.sched := rfl

@[simp] theorem State.endReset_cfg (s : State) : s.endReset.cfg = s.cfg := rfl
@[simp] theorem State.endReset_bq (s : State) : s.endReset.bq = s.bq := rfl
@[simp] theorem State.endReset_rxHold (s : State) : s.endReset.rxHold = s.rxHold := rfl
@[simp] theorem State.endReset_la (s : State) : s.endReset.la = { buf := [], skip := false } := rfl
@[simp] theorem State.endReset_rq (s : State) : s.endReset.rq = [] := rfl
@[simp] theorem State.endReset_pm (s : State) : s.endReset.pm = { s.pm with valid := false } := rfl
@[simp] theorem State.endReset_we (s : State) : s.endReset.we = s.we := rfl
@[simp] theorem State.endReset_sc (s : State) : s.endReset.sc = s.sc := rfl
@[simp] theorem State.endReset_cons (s : State) : s.endReset.cons = s.cons := rfl
@[simp] theorem State.endReset_cnt (s : State) : s.endReset.cnt = s.cnt := rfl
@[simp] theorem State.endReset_lastErr (s : State) : s.endReset.lastErr = s.lastErr := rfl
@[simp] theorem State.endReset_faultNoRam (s : State) : s.endReset.faultNoRam = s.faultNoRam := rfl
@[simp] theorem State.endReset_refused (s : State) : s.endReset.refused = s.refused := rfl
@[simp] theorem State.endReset_stor (s : State) : s.endReset.stor = s.stor := rfl
@[simp] theorem State.endReset_past (s : State) : s.endReset.past = s.past := rfl
@[simp] theorem State.endReset_host (s : State) : s.endReset.host = s.host := rfl
@[simp] theorem State.endReset_ports (s : State) : s.endReset.ports = s.ports := rfl
@[simp] theorem State.endReset_reads (s : State) : s.endReset.reads = s.reads := rfl
@[simp] theorem State.endReset_draws (s : State) : s.endReset.draws = s.draws := rfl
@[simp] theorem State.endReset_sched (s : State) : s.endReset.sched = s.sched := rfl

@[simp] theorem State.readCsr_cfg (s : State) (i : Byte) : (s.readCsr i).cfg = s.cfg := rfl
@[simp] theorem State.readCsr_bq (s : State) (i : Byte) : (s.readCsr i).bq = s.bq := rfl
@[simp] theorem State.readCsr_rxHold (s : State) (i : Byte) : (s.readCsr i).rxHold = s.rxHold := rfl
@[simp] theorem State.readCsr_la (s : State) (i : Byte) : (s.readCsr i).la = s.la := rfl
@[simp] theorem State.readCsr_rq (s : State) (i : Byte) : (s.readCsr i).rq = s.rq := rfl
@[simp] theorem State.readCsr_pm (s : State) (i : Byte) : (s.readCsr i).pm = s.pm := rfl
@[simp] theorem State.readCsr_we (s : State) (i : Byte) : (s.readCsr i).we = s.we := rfl
@[simp] theorem State.readCsr_sc (s : State) (i : Byte) : (s.readCsr i).sc = s.sc := rfl
@[simp] theorem State.readCsr_cons (s : State) (i : Byte) : (s.readCsr i).cons = s.cons := rfl
@[simp] theorem State.readCsr_cnt (s : State) (i : Byte) : (s.readCsr i).cnt = s.cnt := rfl
@[simp] theorem State.readCsr_lastErr (s : State) (i : Byte) : (s.readCsr i).lastErr = s.lastErr := rfl
@[simp] theorem State.readCsr_faultNoRam (s : State) (i : Byte) : (s.readCsr i).faultNoRam = s.faultNoRam := rfl
@[simp] theorem State.readCsr_refused (s : State) (i : Byte) : (s.readCsr i).refused = s.refused := rfl
@[simp] theorem State.readCsr_stor (s : State) (i : Byte) : (s.readCsr i).stor = s.stor := rfl
@[simp] theorem State.readCsr_past (s : State) (i : Byte) : (s.readCsr i).past = s.past := rfl
@[simp] theorem State.readCsr_host (s : State) (i : Byte) : (s.readCsr i).host = s.host := rfl
@[simp] theorem State.readCsr_ports (s : State) (i : Byte) : (s.readCsr i).ports = s.ports := rfl
@[simp] theorem State.readCsr_reads (s : State) (i : Byte) : (s.readCsr i).reads = s.reads ++ [.csr i (s.csr i)] := rfl
@[simp] theorem State.readCsr_draws (s : State) (i : Byte) : (s.readCsr i).draws = s.draws := rfl
@[simp] theorem State.readCsr_sched (s : State) (i : Byte) : (s.readCsr i).sched = s.sched := rfl

@[simp] theorem State.setBootSel_cfg (s : State) (level : Bool) : (s.setBootSel level).cfg = s.cfg := by
  unfold State.setBootSel; split <;> rfl
@[simp] theorem State.setBootSel_bq (s : State) (level : Bool) : (s.setBootSel level).bq = s.bq := by
  unfold State.setBootSel; split <;> rfl
@[simp] theorem State.setBootSel_rxHold (s : State) (level : Bool) : (s.setBootSel level).rxHold = s.rxHold := by
  unfold State.setBootSel; split <;> rfl
@[simp] theorem State.setBootSel_la (s : State) (level : Bool) : (s.setBootSel level).la = s.la := by
  unfold State.setBootSel; split <;> rfl
@[simp] theorem State.setBootSel_rq (s : State) (level : Bool) : (s.setBootSel level).rq = s.rq := by
  unfold State.setBootSel; split <;> rfl
@[simp] theorem State.setBootSel_pm (s : State) (level : Bool) : (s.setBootSel level).pm = s.pm := by
  unfold State.setBootSel; split <;> rfl
@[simp] theorem State.setBootSel_we (s : State) (level : Bool) : (s.setBootSel level).we = s.we := by
  unfold State.setBootSel; split <;> rfl
@[simp] theorem State.setBootSel_sc (s : State) (level : Bool) : (s.setBootSel level).sc = s.sc := by
  unfold State.setBootSel; split <;> rfl
@[simp] theorem State.setBootSel_cons (s : State) (level : Bool) : (s.setBootSel level).cons = s.cons := by
  unfold State.setBootSel; split <;> rfl
@[simp] theorem State.setBootSel_cnt (s : State) (level : Bool) : (s.setBootSel level).cnt = s.cnt := by
  unfold State.setBootSel; split <;> rfl
@[simp] theorem State.setBootSel_lastErr (s : State) (level : Bool) : (s.setBootSel level).lastErr = s.lastErr := by
  unfold State.setBootSel; split <;> rfl
@[simp] theorem State.setBootSel_faultNoRam (s : State) (level : Bool) : (s.setBootSel level).faultNoRam = s.faultNoRam := by
  unfold State.setBootSel; split <;> rfl
@[simp] theorem State.setBootSel_refused (s : State) (level : Bool) : (s.setBootSel level).refused = s.refused := by
  unfold State.setBootSel; split <;> rfl
@[simp] theorem State.setBootSel_stor (s : State) (level : Bool) : (s.setBootSel level).stor = s.stor := by
  unfold State.setBootSel; split <;> rfl
@[simp] theorem State.setBootSel_past (s : State) (level : Bool) : (s.setBootSel level).past = s.past := by
  unfold State.setBootSel; split <;> rfl
theorem State.setBootSel_host (s : State) (level : Bool) : (s.setBootSel level).host =
    if s.host.state = .init ∨ s.host.state = .decide then s.host else { s.host with bootSel := level } := by
  unfold State.setBootSel; split <;> rfl
@[simp] theorem State.setBootSel_ports (s : State) (level : Bool) : (s.setBootSel level).ports = s.ports := by
  unfold State.setBootSel; split <;> rfl
@[simp] theorem State.setBootSel_reads (s : State) (level : Bool) : (s.setBootSel level).reads = s.reads := by
  unfold State.setBootSel; split <;> rfl
@[simp] theorem State.setBootSel_draws (s : State) (level : Bool) : (s.setBootSel level).draws = s.draws := by
  unfold State.setBootSel; split <;> rfl
@[simp] theorem State.setBootSel_sched (s : State) (level : Bool) : (s.setBootSel level).sched = s.sched := by
  unfold State.setBootSel; split <;> rfl

end Sys2Proof.Machine
end

