-- ==== Sys2Proof/Laws/Ops.lean ====
section
/-! SUPPORT. One lemma per shared operation that says what it can do, so that later proofs need not unfold it; and the
arithmetic of the Byte Queue's indices. -/

namespace Sys2Proof.Machine

/-! ## Taking a step only where it is enabled -/

theorem attempt_of {p : Prop} [Decidable p] (h : p) (s t : State) : attempt p s t = .next t := by
  simp [attempt, h]

theorem attempt_not {p : Prop} [Decidable p] (h : ¬ p) (s t : State) : attempt p s t = .next s := by
  simp [attempt, h]

/-- What an attempt can answer. -/
theorem attempt_cases {p : Prop} [Decidable p] {s t u : State} (h : attempt p s t = .next u) :
    p ∧ u = t ∨ ¬ p ∧ u = s := by
  by_cases hp : p
  · exact .inl ⟨hp, by simpa [attempt, hp] using h.symm⟩
  · exact .inr ⟨hp, by simpa [attempt, hp] using h.symm⟩

/-! ## Counters and events, as record updates -/

theorem Counters.get_set_same (c : Counters) (id : CounterId) (v : Nat) : (c.set id v).get id = v := by
  cases id <;> rfl

theorem Counters.get_set_other (c : Counters) {id id' : CounterId} (v : Nat) (h : id' ≠ id) :
    (c.set id v).get id' = c.get id' := by
  cases id <;> cases id' <;> first | rfl | exact absurd rfl h

theorem satAdd_le (cfg : Config) (n k : Nat) : satAdd cfg n k ≤ 2 ^ cfg.cntBits - 1 := Nat.min_le_right _ _

/-! Each event and each traffic counter, written out. -/

theorem State.raise_bqFull (s : State) : s.raise .bqFull =
    { s with cnt := { s.cnt with bqDrop := satAdd s.cfg s.cnt.bqDrop 1 }, lastErr := 1 } := rfl

theorem State.raise_lineOverflow (s : State) : s.raise .lineOverflow =
    { s with cnt := { s.cnt with lineOverflow := satAdd s.cfg s.cnt.lineOverflow 1 }, lastErr := 2 } := rfl

theorem State.raise_lineNoise (s : State) : s.raise .lineNoise =
    { s with cnt := { s.cnt with lineNoise := satAdd s.cfg s.cnt.lineNoise 1 } } := rfl

theorem State.raise_rqFull (s : State) : s.raise .rqFull =
    { s with cnt := { s.cnt with rqDrop := satAdd s.cfg s.cnt.rqDrop 1 }, lastErr := 4 } := rfl

theorem State.raise_hexError (s : State) : s.raise .hexError =
    { s with cnt := { s.cnt with hexErr := satAdd s.cfg s.cnt.hexErr 1 }, lastErr := 5 } := rfl

theorem State.raise_lengthError (s : State) : s.raise .lengthError =
    { s with cnt := { s.cnt with lenErr := satAdd s.cfg s.cnt.lenErr 1 }, lastErr := 6 } := rfl

theorem State.raise_checksumFail (s : State) : s.raise .checksumFail =
    { s with cnt := { s.cnt with cksumFail := satAdd s.cfg s.cnt.cksumFail 1 }, lastErr := 7 } := rfl

theorem State.raise_recordOther (s : State) : s.raise .recordOther =
    { s with cnt := { s.cnt with recOther := satAdd s.cfg s.cnt.recOther 1 } } := rfl

theorem State.raise_outOfRegion (s : State) : s.raise .outOfRegion =
    { s with cnt := { s.cnt with outOfRegion := satAdd s.cfg s.cnt.outOfRegion 1 }, lastErr := 9 } := rfl

theorem State.raise_mergeLost (s : State) : s.raise .mergeLost =
    { s with cnt := { s.cnt with mergeLost := satAdd s.cfg s.cnt.mergeLost 1 }, lastErr := 11 } := rfl

theorem State.raise_storageFail (s : State) : s.raise .storageFail =
    { s with cnt := { s.cnt with storageFail := satAdd s.cfg s.cnt.storageFail 1 }, lastErr := 12 } := rfl

theorem State.raise_rxLost (s : State) : s.raise .rxLost =
    { s with cnt := { s.cnt with rxLost := satAdd s.cfg s.cnt.rxLost 1 }, lastErr := 13 } := rfl

theorem State.raiseBy_unhandledAlignment (s : State) (k : Nat) : s.raiseBy .unhandledAlignment k =
    { s with cnt := { s.cnt with bytesUnhandled := satAdd s.cfg s.cnt.bytesUnhandled k }, lastErr := 10 } := rfl

theorem State.count_lines (s : State) : s.count .lines =
    { s with cnt := { s.cnt with lines := satAdd s.cfg s.cnt.lines 1 } } := rfl

theorem State.count_dataRec (s : State) : s.count .dataRec =
    { s with cnt := { s.cnt with dataRec := satAdd s.cfg s.cnt.dataRec 1 } } := rfl

theorem State.count_endRec (s : State) : s.count .endRec =
    { s with cnt := { s.cnt with endRec := satAdd s.cfg s.cnt.endRec 1 } } := rfl

theorem State.count_prog (s : State) : s.count .prog =
    { s with cnt := { s.cnt with prog := satAdd s.cfg s.cnt.prog 1 } } := rfl

theorem State.count_erase (s : State) : s.count .erase =
    { s with cnt := { s.cnt with erase := satAdd s.cfg s.cnt.erase 1 } } := rfl

/-! ## The receive side -/

theorem State.pushByte_full (s : State) (b : Byte) (h : s.seenByRx = s.cfg.bqCap) :
    s.pushByte b = s.raise .bqFull := by
  simp [State.pushByte, h]

theorem State.pushByte_room (s : State) (b : Byte) (h : s.seenByRx ≠ s.cfg.bqCap) :
    s.pushByte b = { s with bq := { s.bq with
      mem := s.bq.mem.set (s.bq.wr % s.cfg.bqCap) b, wr := nextIndex s.cfg.bqCap s.bq.wr } } := by
  simp [State.pushByte, h]

theorem State.holdByte_room (s : State) (b : Byte) (h : s.rxHold.length < s.cfg.rxHoldDepth) :
    s.holdByte b = { s with rxHold := s.rxHold ++ [b] } := by
  simp [State.holdByte, h]

theorem State.holdByte_full (s : State) (b : Byte) (h : s.cfg.rxHoldDepth ≤ s.rxHold.length) :
    s.holdByte b = s.raise .rxLost := by
  simp [State.holdByte, Nat.not_lt.2 h]

/-! ## The Line Assembler -/

theorem State.pushLine_room (s : State) (line : List Byte) (h : s.rq.length ≠ s.cfg.rqCap) :
    s.pushLine line = { s with rq := s.rq ++ [line] }.count .lines := by
  simp [State.pushLine, h]

theorem State.pushLine_full (s : State) (line : List Byte) (h : s.rq.length = s.cfg.rqCap) :
    s.pushLine line = s.raise .rqFull := by
  simp [State.pushLine, h]

/-- The four operations, told apart by the byte and the assembler. -/
theorem lineOp_cases (cfg : Config) (la : LineAssembler) (b : Byte) :
    (b ≠ cfg.newline ∧ la.skip = false ∧ la.buf.length ≠ cfg.lineMax ∧ lineOp cfg la b = .append) ∨
    (b ≠ cfg.newline ∧ (la.skip = true ∨ la.buf.length = cfg.lineMax) ∧ lineOp cfg la b = .overflow) ∨
    (b = cfg.newline ∧ la.skip = false ∧ la.buf.head? = some cfg.marker ∧ lineOp cfg la b = .eolEmit) ∨
    (b = cfg.newline ∧ (la.skip = true ∨ la.buf.head? ≠ some cfg.marker) ∧ lineOp cfg la b = .eolNoise) := by
  unfold lineOp looksLikeRecord
  by_cases hb : b = cfg.newline <;> by_cases hs : la.skip = true <;>
    by_cases hl : la.buf.length = cfg.lineMax <;> by_cases hm : la.buf.head? = some cfg.marker <;>
    simp [hb, hs, hl, hm]

theorem State.laByte_append (s : State) (b : Byte) (h : lineOp s.cfg s.la b = .append) : s.laByte b = s.laAppend b := by
  simp [State.laByte, h]

theorem State.laByte_overflow (s : State) (b : Byte) (h : lineOp s.cfg s.la b = .overflow) : s.laByte b = s.laOverflow := by
  simp [State.laByte, h]

theorem State.laByte_eolEmit (s : State) (b : Byte) (h : lineOp s.cfg s.la b = .eolEmit) : s.laByte b = s.laEolEmit := by
  simp [State.laByte, h]

theorem State.laByte_eolNoise (s : State) (b : Byte) (h : lineOp s.cfg s.la b = .eolNoise) :
    s.laByte b = s.laEolNoise := by
  simp [State.laByte, h]

/-! ## The storage command port -/

theorem State.scIssue_ready (s : State) (op : StorageOp) (addr : Addr) (data : Phrase) (ret : WaitRet)
    (h : s.sc.ramReady = true) :
    s.scIssue op addr data ret = { s with
      sc := { s.sc with busy := true, op := op, addr := addr, data := data }
      cons := { s.cons with state := .wait, waitRet := ret }
      cnt := match op with
        | .program8 => { s.cnt with prog := satAdd s.cfg s.cnt.prog 1 }
        | .eraseSector => { s.cnt with erase := satAdd s.cfg s.cnt.erase 1 }
      ports := { s.ports with emitted := s.ports.emitted ++ [.scCmd op addr data] } } := by
  cases op <;> simp [State.scIssue, h, State.count, State.countBy, State.emitCommand, Counters.set, Counters.get]

theorem State.scIssue_fault (s : State) (op : StorageOp) (addr : Addr) (data : Phrase) (ret : WaitRet)
    (h : s.sc.ramReady = false) :
    s.scIssue op addr data ret = { s with faultNoRam := true, cons := { s.cons with state := .fault } } := by
  simp [State.scIssue, h]

theorem State.issueProgram8_in (s : State) (base : Addr) (data : Phrase) (ret : WaitRet)
    (h : phraseInWindow s.cfg base = true) : s.issueProgram8 base data ret = s.scIssue .program8 base data ret := by
  simp [State.issueProgram8, h]

theorem State.issueProgram8_out (s : State) (base : Addr) (data : Phrase) (ret : WaitRet)
    (h : phraseInWindow s.cfg base = false) : s.issueProgram8 base data ret = s.raise .outOfRegion := by
  simp [State.issueProgram8, h]

/-! ## The case selector -/

/-- The selector's cases, told apart (spec/30_encoding.md R108). -/
theorem writeCase_cases (a : Addr) (n : Nat) :
    (a.toNat % 8 = 0 ∧ n = 4 ∧ writeCase a n = .caseA) ∨
    (a.toNat % 8 = 4 ∧ 4 ≤ n ∧ writeCase a n = .caseB) ∨
    (a.toNat % 8 = 0 ∧ 8 ≤ n ∧ writeCase a n = .caseC) ∨
    ((a.toNat % 8 ≠ 0 ∨ n ≠ 4 ∧ n < 8) ∧ (a.toNat % 8 ≠ 4 ∨ n < 4) ∧ writeCase a n = .skip) := by
  unfold writeCase
  split
  next h => exact .inl ⟨h.1, h.2, rfl⟩
  next h1 =>
    split
    next h => exact .inr (.inl ⟨h.1, h.2, rfl⟩)
    next h2 =>
      split
      next h => exact .inr (.inr (.inl ⟨h.1, h.2, rfl⟩))
      next h3 => exact .inr (.inr (.inr ⟨by omega, by omega, rfl⟩))

/-! ## The parser -/

/-- A valid record has no error and a kind. -/
theorem parseBody_valid {mode : HexErrorMode} {k : Kind} {text : List Byte}
    (h : (parseBody mode k text).valid = true) : (parseBody mode k text).err = .none := by
  revert h
  unfold parseBody
  split
  · split
    · simp [badRecord]
    · split
      · simp [badRecord]
      · split
        · simp [badRecord]
        · exact fun _ => rfl
  · simp [badRecord]

theorem parseBody_kind (mode : HexErrorMode) (k : Kind) (text : List Byte) :
    (parseBody mode k text).kind = k := by
  unfold parseBody
  split
  · split
    · rfl
    · split
      · rfl
      · split <;> rfl
  · rfl

/-- The kind of a parsed line is the line's kind (spec/42_record_parser.md R170). -/
theorem parseLine_kind (cfg : Config) (line : List Byte) : (parseLine cfg line).kind = lineKind cfg line := by
  unfold parseLine
  split
  next h => rw [h]; rfl
  next h => rw [parseBody_kind]

theorem parseLine_valid {cfg : Config} {line : List Byte} (h : (parseLine cfg line).valid = true) :
    (parseLine cfg line).err = .none ∧ (parseLine cfg line).kind ≠ .other := by
  rw [parseLine_kind]
  unfold parseLine at h ⊢
  split at h
  next => simp [otherRecord] at h
  next k hk => exact ⟨by simpa [hk] using parseBody_valid h, fun hk' => hk hk'⟩

theorem parseLine_other {cfg : Config} {line : List Byte} (h : (parseLine cfg line).kind = .other) :
    parseLine cfg line = otherRecord := by
  rw [parseLine_kind] at h
  simp [parseLine, h]

/-! ## Kind digits and hex text -/

/-- In a configuration the model runs, each kind digit selects its own kind (spec/00_scope.md R10, spec/30_encoding.md
R93). -/
theorem kindOf_digits {c : Config} (h : c.wf = true) :
    c.kindOf c.kinds.data16 = .data16 ∧ c.kindOf c.kinds.data24 = .data24 ∧ c.kindOf c.kinds.data32 = .data32 ∧
    c.kindOf c.kinds.end32 = .end32 ∧ c.kindOf c.kinds.end24 = .end24 ∧ c.kindOf c.kinds.end16 = .end16 := by
  have hk : c.kinds.toList.Nodup := by simp only [Config.wf, Bool.and_eq_true, decide_eq_true_eq] at h; exact h.2
  simp only [KindDigits.toList, List.nodup_cons, List.mem_cons, List.not_mem_nil, or_false, not_or] at hk
  obtain ⟨⟨a1, a2, a3, a4, a5⟩, ⟨b1, b2, b3, b4⟩, ⟨c1, c2, c3⟩, ⟨d1, d2⟩, e, -⟩ := hk
  refine ⟨?_, ?_, ?_, ?_, ?_, ?_⟩ <;>
    simp [Config.kindOf, Ne.symm a1, Ne.symm a2, Ne.symm a3, Ne.symm a4, Ne.symm a5, Ne.symm b1, Ne.symm b2,
      Ne.symm b3, Ne.symm b4, Ne.symm c1, Ne.symm c2, Ne.symm c3, Ne.symm d1, Ne.symm d2, Ne.symm e]

/-- A byte that is no kind digit selects OTHER. -/
theorem kindOf_other {c : Config} {d : Byte} (h : d ∉ c.kinds.toList) : c.kindOf d = .other := by
  simp only [KindDigits.toList, List.mem_cons, List.not_mem_nil, or_false, not_or] at h
  obtain ⟨h1, h2, h3, h4, h5, h6⟩ := h
  simp [Config.kindOf, h1, h2, h3, h4, h5, h6]

/-- What a kind byte selects, case by case. -/
theorem kindOf_cases (c : Config) (d : Byte) :
    (d = c.kinds.data16 ∧ c.kindOf d = .data16) ∨ (d = c.kinds.data24 ∧ c.kindOf d = .data24) ∨
    (d = c.kinds.data32 ∧ c.kindOf d = .data32) ∨ (d = c.kinds.end32 ∧ c.kindOf d = .end32) ∨
    (d = c.kinds.end24 ∧ c.kindOf d = .end24) ∨ (d = c.kinds.end16 ∧ c.kindOf d = .end16) ∨
    (d ∉ c.kinds.toList ∧ c.kindOf d = .other) := by
  by_cases h : d ∈ c.kinds.toList
  · unfold Config.kindOf
    by_cases h1 : d = c.kinds.data16
    · exact .inl ⟨h1, if_pos h1⟩
    · by_cases h2 : d = c.kinds.data24
      · exact .inr (.inl ⟨h2, by rw [if_neg h1, if_pos h2]⟩)
      · by_cases h3 : d = c.kinds.data32
        · exact .inr (.inr (.inl ⟨h3, by rw [if_neg h1, if_neg h2, if_pos h3]⟩))
        · by_cases h4 : d = c.kinds.end32
          · exact .inr (.inr (.inr (.inl ⟨h4, by rw [if_neg h1, if_neg h2, if_neg h3, if_pos h4]⟩)))
          · by_cases h5 : d = c.kinds.end24
            · exact .inr (.inr (.inr (.inr (.inl
                ⟨h5, by rw [if_neg h1, if_neg h2, if_neg h3, if_neg h4, if_pos h5]⟩))))
            · by_cases h6 : d = c.kinds.end16
              · exact .inr (.inr (.inr (.inr (.inr (.inl
                  ⟨h6, by rw [if_neg h1, if_neg h2, if_neg h3, if_neg h4, if_neg h5, if_pos h6]⟩)))))
              · simp [KindDigits.toList, h1, h2, h3, h4, h5, h6] at h
  · exact .inr (.inr (.inr (.inr (.inr (.inr ⟨h, kindOf_other h⟩)))))

theorem hexDigit_hexChar (mode : HexErrorMode) (upper : Bool) (n : Nat) (h : n < 16) :
    hexDigit mode (hexChar upper n) = some (BitVec.ofNat 4 n) := by
  cases mode <;> cases upper <;> interval_cases n <;> rfl

/-- Two hex characters of a byte read as that byte. -/
theorem hexPair_hexChar (mode : HexErrorMode) (u v : Bool) (b : Byte) :
    hexPair mode (hexChar u (b.toNat / 16)) (hexChar v (b.toNat % 16)) = some b := by
  have hb := b.isLt
  unfold hexPair
  rw [hexDigit_hexChar _ _ _ (by omega), hexDigit_hexChar _ _ _ (by omega)]
  simp only [Option.some.injEq]
  apply BitVec.eq_of_toNat_eq
  simp only [BitVec.toNat_ofNat]
  omega

theorem hexText_length (upper : Nat → Bool) (bs : List Byte) : (hexText upper bs).length = 2 * bs.length := by
  induction bs generalizing upper with
  | nil => rfl
  | cons b bs ih => simp only [hexText, List.length_cons, ih]; omega

/-- The hex text of some bytes reads as those bytes, whatever follows. -/
theorem hexBytes_hexText (mode : HexErrorMode) (upper : Nat → Bool) (bs rest : List Byte) :
    hexBytes mode bs.length (hexText upper bs ++ rest) = some bs := by
  induction bs generalizing upper with
  | nil => rfl
  | cons b bs ih => simp [hexText, hexBytes, hexPair_hexChar, ih]

/-- The big-endian number as the weighted sum of spec/42_record_parser.md R172. -/
theorem bigEndian_eq_sum (bs : List Byte) :
    bigEndian bs = ((List.range bs.length).map fun j => (bs.getD j 0).toNat * 256 ^ (bs.length - 1 - j)).sum := by
  induction bs using List.reverseRecOn with
  | nil => rfl
  | append_singleton bs b ih =>
    have hstep : bigEndian (bs ++ [b]) = bigEndian bs * 256 + b.toNat := by simp [bigEndian]
    rw [hstep, ih, List.length_append, List.length_singleton, List.range_succ, List.map_append, List.sum_append,
      ← List.sum_map_mul_right]
    congr 1
    · refine congrArg List.sum (List.map_congr_left fun j hj => ?_)
      have hj := List.mem_range.1 hj
      rw [List.getD_append _ _ _ _ hj, Nat.mul_assoc, ← Nat.pow_succ]
      congr 2; omega
    · simp

theorem hexBytes_length {mode : HexErrorMode} {n : Nat} {text bs : List Byte} (h : hexBytes mode n text = some bs) :
    bs.length = n := by
  induction n generalizing text bs with
  | zero => cases text <;> simp [hexBytes] at h <;> simp [h]
  | succ n ih =>
    rcases text with _ | ⟨c0, _ | ⟨c1, text⟩⟩
    · simp [hexBytes] at h
    · simp [hexBytes] at h
    · simp only [hexBytes] at h
      split at h
      next _ hb => injection h with h; subst h; simp [ih hb]
      · cases h

/-- Hex text of `n` pairs is in error exactly when one of its pairs is. -/
theorem hexBytes_eq_none {mode : HexErrorMode} {n : Nat} {text : List Byte} (hl : 2 * n ≤ text.length) :
    hexBytes mode n text = none ↔
      ∃ j < n, hexPair mode (text.getD (2 * j) 0) (text.getD (2 * j + 1) 0) = none := by
  induction n generalizing text with
  | zero => cases text <;> simp [hexBytes]
  | succ n ih =>
    rcases text with _ | ⟨c0, _ | ⟨c1, text⟩⟩
    · simp at hl
    · simp at hl; omega
    · have ih := ih (text := text) (by simp at hl; omega)
      simp only [hexBytes]
      constructor
      · intro h
        split at h
        · cases h
        next hne =>
          cases hp : hexPair mode c0 c1 with
          | none => exact ⟨0, by omega, by simpa using hp⟩
          | some b =>
            cases hq : hexBytes mode n text with
            | none =>
              obtain ⟨j, hj, hjn⟩ := ih.1 hq
              refine ⟨j + 1, by omega, ?_⟩
              rw [show 2 * (j + 1) = 2 * j + 1 + 1 by ring]
              simpa using hjn
            | some bs => exact absurd hq (hne b bs hp)
      · rintro ⟨j, hj, hjn⟩
        cases j with
        | zero => simp only [Nat.mul_zero, Nat.zero_add] at hjn; simp at hjn; simp [hjn]
        | succ j =>
          rw [show 2 * (j + 1) = 2 * j + 1 + 1 by ring] at hjn
          have := ih.2 ⟨j, by omega, by simpa using hjn⟩
          simp [this]

/-! ## Routing a record -/

theorem State.routeRecord_other (s : State) (r : Record) (h : r.kind = .other) :
    s.routeRecord r = s.raise .recordOther := by
  simp [State.routeRecord, h]

/-- A valid end record ends the transfer. -/
theorem State.routeRecord_end (s : State) (r : Record) (hk : isEnd r.kind = true) (he : r.err = .none)
    (hv : r.valid = true) : s.routeRecord r = (s.count .endRec).endTransfer := by
  have h1 : r.kind ≠ .other := by intro h; simp [h, isEnd] at hk
  have h2 : isData r.kind = false := by cases hr : r.kind <;> simp_all [isEnd, isData]
  simp [State.routeRecord, h1, he, hv, h2]

/-- What routing a record can do: an event of an invalid record, a data record taken, or the end of a transfer. -/
theorem State.routeRecord_cases (s : State) (r : Record) :
    (∃ e ∈ [ErrorEvent.recordOther, .hexError, .lengthError, .checksumFail], s.routeRecord r = s.raise e) ∨
    s.routeRecord r = s.takeData r ∨ s.routeRecord r = (s.count .endRec).endTransfer := by
  unfold State.routeRecord
  split
  · exact .inl ⟨.recordOther, by simp, rfl⟩
  · split
    · exact .inl ⟨.hexError, by simp, rfl⟩
    · split
      · exact .inl ⟨.lengthError, by simp, rfl⟩
      · split
        · exact .inl ⟨.checksumFail, by simp, rfl⟩
        · split
          · exact .inr (.inl rfl)
          · exact .inr (.inr rfl)

/-! ## The Byte Queue's indices -/

theorem occupancy_lt {cap : Nat} (h : 1 ≤ cap) (wr rd : Nat) : occupancy cap wr rd < 2 * cap :=
  Nat.mod_lt _ (by omega)

/-- The occupancy is the non-negative remainder of `wr − rd` by `2·cap` (spec/10_state.md R26). -/
theorem occupancy_eq_emod {cap : Nat} (h : 1 ≤ cap) (wr rd : Nat) :
    (occupancy cap wr rd : Int) = ((wr : Int) - (rd : Int)) % (2 * (cap : Int)) := by
  have hr : rd % (2 * cap) < 2 * cap := Nat.mod_lt _ (by omega)
  unfold occupancy
  rw [Int.natCast_emod, Int.natCast_add, Int.ofNat_sub (by omega)]
  push_cast
  rw [show (wr : Int) + (2 * cap - (rd : Int) % (2 * cap)) = (wr - (rd : Int) % (2 * cap)) + 2 * cap by ring,
    Int.add_emod_right]
  exact_mod_cast Int.sub_emod_emod (wr : Int) (rd : Int) ((2 * cap : Nat) : Int)

/-- Taking the write index one on makes the occupancy one more, below the index range. -/
theorem occupancy_next_wr {cap : Nat} (h : 1 ≤ cap) (wr rd : Nat) (hlt : occupancy cap wr rd + 1 < 2 * cap) :
    occupancy cap (nextIndex cap wr) rd = occupancy cap wr rd + 1 := by
  unfold occupancy nextIndex at *
  rw [Nat.mod_add_mod, Nat.add_right_comm, Nat.add_mod, Nat.mod_eq_of_lt (a := 1) (by omega)]
  exact Nat.mod_eq_of_lt hlt

/-- Taking the read index one on makes the occupancy one less. -/
theorem occupancy_next_rd {cap : Nat} (h : 1 ≤ cap) (wr rd : Nat) (hpos : 0 < occupancy cap wr rd) :
    occupancy cap wr (nextIndex cap rd) = occupancy cap wr rd - 1 := by
  have h2 := occupancy_lt h wr rd
  have e1 := occupancy_eq_emod h wr rd
  have e2 := occupancy_eq_emod h wr (nextIndex cap rd)
  have key : ((wr : Int) - (nextIndex cap rd : Nat)) % (2 * (cap : Int)) = (occupancy cap wr rd : Int) - 1 := by
    unfold nextIndex
    push_cast
    rw [Int.sub_emod_emod, show (wr : Int) - (rd + 1) = (wr - rd) - 1 by ring, Int.sub_emod, ← e1]
    have : (1 : Int) % (2 * (cap : Int)) = 1 := Int.emod_eq_of_lt (by omega) (by omega)
    rw [this]
    exact Int.emod_eq_of_lt (by omega) (by omega)
  omega

theorem occupancy_self {cap : Nat} (h : 1 ≤ cap) (i : Nat) : occupancy cap i i = 0 := by
  have e := occupancy_eq_emod h i i
  simp at e; exact_mod_cast e

theorem nextIndex_lt {cap : Nat} (h : 1 ≤ cap) (i : Nat) : nextIndex cap i < 2 * cap := Nat.mod_lt _ (by omega)

/-- The slot of an index is unchanged by the wrap of the index. -/
theorem nextIndex_mod (cap i : Nat) : nextIndex cap i % cap = (i + 1) % cap :=
  Nat.mod_mod_of_dvd _ (Dvd.intro_left 2 rfl)

/-- The write slot lies `bq_count` slots above the read slot. -/
theorem slot_of_wr {cap : Nat} (h : 1 ≤ cap) (wr rd : Nat) : (rd + occupancy cap wr rd) % cap = wr % cap := by
  have e := occupancy_eq_emod h wr rd
  have : (((rd + occupancy cap wr rd : Nat) : Int)) % (cap : Int) = ((wr : Nat) : Int) % (cap : Int) := by
    push_cast
    rw [e, Int.add_emod, Int.emod_emod_of_dvd _ (Dvd.intro_left 2 rfl), ← Int.add_emod]
    congr 1; ring
  exact_mod_cast this

/-! ## HOST reads of storage -/

/-- A HOST read sees the array as it stands or what it held before a command of this launch. -/
theorem State.readSource_mem (s : State) (k : Nat) : s.readSource k ∈ s.stor :: s.past := by
  unfold State.readSource
  split
  · simp
  next => rw [List.getD_eq_getElem?_getD]; cases h : (s.stor :: s.past)[Config.readAge (s.draws + k)]? with
    | none => simp
    | some m => exact List.mem_of_getElem? h

/-- What a HOST read sees does not depend on the schedule. -/
@[simp] theorem State.readByte_sched (s : State) (rest : List Event) (k : Nat) (a : Addr) :
    { s with sched := rest }.readByte k a = s.readByte k a := rfl

/-- With no command completed in this launch a HOST read is never stale. -/
@[simp] theorem State.readByte_fresh (s : State) (k : Nat) (a : Addr) (h : s.past = []) :
    s.readByte k a = s.storByte a := by
  simp [State.readByte, State.readSource, State.storByte, h]

end Sys2Proof.Machine
end

