-- ==== Sys2Proof/Laws/Fairness.lean ====
section
/-! SUPPORT. What an entry of the schedule that is the storage controller's step can do, for claims under weak
fairness. -/

namespace Sys2Proof.Machine

/-- After a completion no command is outstanding. -/
theorem State.completeCommand_busy (s : State) (st : Status) : (s.completeCommand st).sc.busy = false := by
  unfold State.completeCommand State.afterDone State.noteStatus
  cases st <;> split <;> simp

/-- The operations that are the storage controller's steps. -/
theorem agentOf_sc {i : Instr} (h : agentOf i = .sc) :
    ∃ st, i = .scDone st ∨ i = .scProgram8 st ∨ i = .scEraseSector st := by
  cases i <;> simp [agentOf] at h ⊢

/-- While a command is outstanding, a completing operation moves by completing it, or not at all. -/
theorem exec_sc_cases {i : Instr} {s : State} (h : agentOf i = .sc) (busy : s.sc.busy = true) :
    (∃ st, exec i s = .next (s.completeCommand st)) ∨ exec i s = .next s := by
  obtain ⟨st, rfl | rfl | rfl⟩ := agentOf_sc h
  · exact .inl ⟨st, by simp [exec, execScDone, busy]⟩
  all_goals
    simp only [exec, execScProgram8, execScEraseSector, busy, if_true, attempt]
    split
    · exact .inl ⟨st, rfl⟩
    · exact .inr rfl

/-- An entry that is a storage controller's step and moves leaves no command outstanding. -/
theorem takeEvent_sc {e : Event} {s t : State} (busy : s.sc.busy = true) (mine : owedBy s.cfg e = some .sc)
    (moves : s.takeEvent e ≠ .next s) (h : s.takeEvent e = .next t) : t.sc.busy = false := by
  cases e <;> simp only [owedBy, Option.some.injEq, reduceCtorEq] at mine
  next code arg =>
    simp only [State.takeEvent, State.runFetched] at moves h
    split at mine
    next i hi =>
      simp only [hi] at moves h
      split at mine
      next => cases mine
      simp only [Option.some.injEq] at mine
      rcases exec_sc_cases mine busy with ⟨st, hx⟩ | hx
      · rw [hx] at h; cases h; exact s.completeCommand_busy st
      · exact absurd hx moves
    next => cases mine

/-- A step of the storage controller that moves leaves no command outstanding. -/
theorem State.movesFor_sc {e : Event} {s t : State} (busy : s.sc.busy = true) (moves : s.movesFor .sc e)
    (h : step { s with sched := [e] } = .next t) : t.sc.busy = false := by
  obtain ⟨mine, ne⟩ := moves
  unfold step at h ne
  split at h
  next hw =>
    rw [if_pos hw] at ne
    exact takeEvent_sc (s := { s with sched := [] }) busy mine ne h
  next => cases h

end Sys2Proof.Machine
end

