-- ==== Sys2Proof/Laws/Frames.lean ====
section
/-! SUPPORT. The frame of each shared operation: the fields it leaves as they are, one lemma per field, so that a later
proof need not unfold the operation. -/

namespace Sys2Proof.Machine

/-! ## BQ_PUSH -/

@[simp] theorem State.pushByte_cfg (s : State) (b : Byte) : (s.pushByte b).cfg = s.cfg := by
  unfold State.pushByte
  split
  · simp
  · simp

@[simp] theorem State.pushByte_rxHold (s : State) (b : Byte) : (s.pushByte b).rxHold = s.rxHold := by
  unfold State.pushByte
  split
  · simp
  · simp

@[simp] theorem State.pushByte_la (s : State) (b : Byte) : (s.pushByte b).la = s.la := by
  unfold State.pushByte
  split
  · simp
  · simp

@[simp] theorem State.pushByte_rq (s : State) (b : Byte) : (s.pushByte b).rq = s.rq := by
  unfold State.pushByte
  split
  · simp
  · simp

@[simp] theorem State.pushByte_pm (s : State) (b : Byte) : (s.pushByte b).pm = s.pm := by
  unfold State.pushByte
  split
  · simp
  · simp

@[simp] theorem State.pushByte_we (s : State) (b : Byte) : (s.pushByte b).we = s.we := by
  unfold State.pushByte
  split
  · simp
  · simp

@[simp] theorem State.pushByte_sc (s : State) (b : Byte) : (s.pushByte b).sc = s.sc := by
  unfold State.pushByte
  split
  · simp
  · simp

@[simp] theorem State.pushByte_cons (s : State) (b : Byte) : (s.pushByte b).cons = s.cons := by
  unfold State.pushByte
  split
  · simp
  · simp

@[simp] theorem State.pushByte_faultNoRam (s : State) (b : Byte) : (s.pushByte b).faultNoRam = s.faultNoRam := by
  unfold State.pushByte
  split
  · simp
  · simp

@[simp] theorem State.pushByte_refused (s : State) (b : Byte) : (s.pushByte b).refused = s.refused := by
  unfold State.pushByte
  split
  · simp
  · simp

@[simp] theorem State.pushByte_stor (s : State) (b : Byte) : (s.pushByte b).stor = s.stor := by
  unfold State.pushByte
  split
  · simp
  · simp

@[simp] theorem State.pushByte_past (s : State) (b : Byte) : (s.pushByte b).past = s.past := by
  unfold State.pushByte
  split
  · simp
  · simp

@[simp] theorem State.pushByte_host (s : State) (b : Byte) : (s.pushByte b).host = s.host := by
  unfold State.pushByte
  split
  · simp
  · simp

@[simp] theorem State.pushByte_ports (s : State) (b : Byte) : (s.pushByte b).ports = s.ports := by
  unfold State.pushByte
  split
  · simp
  · simp

@[simp] theorem State.pushByte_reads (s : State) (b : Byte) : (s.pushByte b).reads = s.reads := by
  unfold State.pushByte
  split
  · simp
  · simp

@[simp] theorem State.pushByte_draws (s : State) (b : Byte) : (s.pushByte b).draws = s.draws := by
  unfold State.pushByte
  split
  · simp
  · simp

@[simp] theorem State.pushByte_sched (s : State) (b : Byte) : (s.pushByte b).sched = s.sched := by
  unfold State.pushByte
  split
  · simp
  · simp

/-! ## RX_HOLD -/

@[simp] theorem State.holdByte_cfg (s : State) (b : Byte) : (s.holdByte b).cfg = s.cfg := by
  unfold State.holdByte
  split
  · simp
  · simp

@[simp] theorem State.holdByte_bq (s : State) (b : Byte) : (s.holdByte b).bq = s.bq := by
  unfold State.holdByte
  split
  · simp
  · simp

@[simp] theorem State.holdByte_la (s : State) (b : Byte) : (s.holdByte b).la = s.la := by
  unfold State.holdByte
  split
  · simp
  · simp

@[simp] theorem State.holdByte_rq (s : State) (b : Byte) : (s.holdByte b).rq = s.rq := by
  unfold State.holdByte
  split
  · simp
  · simp

@[simp] theorem State.holdByte_pm (s : State) (b : Byte) : (s.holdByte b).pm = s.pm := by
  unfold State.holdByte
  split
  · simp
  · simp

@[simp] theorem State.holdByte_we (s : State) (b : Byte) : (s.holdByte b).we = s.we := by
  unfold State.holdByte
  split
  · simp
  · simp

@[simp] theorem State.holdByte_sc (s : State) (b : Byte) : (s.holdByte b).sc = s.sc := by
  unfold State.holdByte
  split
  · simp
  · simp

@[simp] theorem State.holdByte_cons (s : State) (b : Byte) : (s.holdByte b).cons = s.cons := by
  unfold State.holdByte
  split
  · simp
  · simp

@[simp] theorem State.holdByte_faultNoRam (s : State) (b : Byte) : (s.holdByte b).faultNoRam = s.faultNoRam := by
  unfold State.holdByte
  split
  · simp
  · simp

@[simp] theorem State.holdByte_refused (s : State) (b : Byte) : (s.holdByte b).refused = s.refused := by
  unfold State.holdByte
  split
  · simp
  · simp

@[simp] theorem State.holdByte_stor (s : State) (b : Byte) : (s.holdByte b).stor = s.stor := by
  unfold State.holdByte
  split
  · simp
  · simp

@[simp] theorem State.holdByte_past (s : State) (b : Byte) : (s.holdByte b).past = s.past := by
  unfold State.holdByte
  split
  · simp
  · simp

@[simp] theorem State.holdByte_host (s : State) (b : Byte) : (s.holdByte b).host = s.host := by
  unfold State.holdByte
  split
  · simp
  · simp

@[simp] theorem State.holdByte_ports (s : State) (b : Byte) : (s.holdByte b).ports = s.ports := by
  unfold State.holdByte
  split
  · simp
  · simp

@[simp] theorem State.holdByte_reads (s : State) (b : Byte) : (s.holdByte b).reads = s.reads := by
  unfold State.holdByte
  split
  · simp
  · simp

@[simp] theorem State.holdByte_draws (s : State) (b : Byte) : (s.holdByte b).draws = s.draws := by
  unfold State.holdByte
  split
  · simp
  · simp

@[simp] theorem State.holdByte_sched (s : State) (b : Byte) : (s.holdByte b).sched = s.sched := by
  unfold State.holdByte
  split
  · simp
  · simp

/-! ## RQ_PUSH -/

@[simp] theorem State.pushLine_cfg (s : State) (line : List Byte) : (s.pushLine line).cfg = s.cfg := by
  unfold State.pushLine
  split
  · simp
  · simp

@[simp] theorem State.pushLine_bq (s : State) (line : List Byte) : (s.pushLine line).bq = s.bq := by
  unfold State.pushLine
  split
  · simp
  · simp

@[simp] theorem State.pushLine_rxHold (s : State) (line : List Byte) : (s.pushLine line).rxHold = s.rxHold := by
  unfold State.pushLine
  split
  · simp
  · simp

@[simp] theorem State.pushLine_la (s : State) (line : List Byte) : (s.pushLine line).la = s.la := by
  unfold State.pushLine
  split
  · simp
  · simp

@[simp] theorem State.pushLine_pm (s : State) (line : List Byte) : (s.pushLine line).pm = s.pm := by
  unfold State.pushLine
  split
  · simp
  · simp

@[simp] theorem State.pushLine_we (s : State) (line : List Byte) : (s.pushLine line).we = s.we := by
  unfold State.pushLine
  split
  · simp
  · simp

@[simp] theorem State.pushLine_sc (s : State) (line : List Byte) : (s.pushLine line).sc = s.sc := by
  unfold State.pushLine
  split
  · simp
  · simp

@[simp] theorem State.pushLine_cons (s : State) (line : List Byte) : (s.pushLine line).cons = s.cons := by
  unfold State.pushLine
  split
  · simp
  · simp

@[simp] theorem State.pushLine_faultNoRam (s : State) (line : List Byte) : (s.pushLine line).faultNoRam = s.faultNoRam := by
  unfold State.pushLine
  split
  · simp
  · simp

@[simp] theorem State.pushLine_refused (s : State) (line : List Byte) : (s.pushLine line).refused = s.refused := by
  unfold State.pushLine
  split
  · simp
  · simp

@[simp] theorem State.pushLine_stor (s : State) (line : List Byte) : (s.pushLine line).stor = s.stor := by
  unfold State.pushLine
  split
  · simp
  · simp

@[simp] theorem State.pushLine_past (s : State) (line : List Byte) : (s.pushLine line).past = s.past := by
  unfold State.pushLine
  split
  · simp
  · simp

@[simp] theorem State.pushLine_host (s : State) (line : List Byte) : (s.pushLine line).host = s.host := by
  unfold State.pushLine
  split
  · simp
  · simp

@[simp] theorem State.pushLine_ports (s : State) (line : List Byte) : (s.pushLine line).ports = s.ports := by
  unfold State.pushLine
  split
  · simp
  · simp

@[simp] theorem State.pushLine_reads (s : State) (line : List Byte) : (s.pushLine line).reads = s.reads := by
  unfold State.pushLine
  split
  · simp
  · simp

@[simp] theorem State.pushLine_draws (s : State) (line : List Byte) : (s.pushLine line).draws = s.draws := by
  unfold State.pushLine
  split
  · simp
  · simp

@[simp] theorem State.pushLine_sched (s : State) (line : List Byte) : (s.pushLine line).sched = s.sched := by
  unfold State.pushLine
  split
  · simp
  · simp

/-! ## LA_OVERFLOW -/

@[simp] theorem State.laOverflow_cfg (s : State) : s.laOverflow.cfg = s.cfg := by
  unfold State.laOverflow
  split
  · simp
  · simp

@[simp] theorem State.laOverflow_bq (s : State) : s.laOverflow.bq = s.bq := by
  unfold State.laOverflow
  split
  · simp
  · simp

@[simp] theorem State.laOverflow_rxHold (s : State) : s.laOverflow.rxHold = s.rxHold := by
  unfold State.laOverflow
  split
  · simp
  · simp

@[simp] theorem State.laOverflow_rq (s : State) : s.laOverflow.rq = s.rq := by
  unfold State.laOverflow
  split
  · simp
  · simp

@[simp] theorem State.laOverflow_pm (s : State) : s.laOverflow.pm = s.pm := by
  unfold State.laOverflow
  split
  · simp
  · simp

@[simp] theorem State.laOverflow_we (s : State) : s.laOverflow.we = s.we := by
  unfold State.laOverflow
  split
  · simp
  · simp

@[simp] theorem State.laOverflow_sc (s : State) : s.laOverflow.sc = s.sc := by
  unfold State.laOverflow
  split
  · simp
  · simp

@[simp] theorem State.laOverflow_cons (s : State) : s.laOverflow.cons = s.cons := by
  unfold State.laOverflow
  split
  · simp
  · simp

@[simp] theorem State.laOverflow_faultNoRam (s : State) : s.laOverflow.faultNoRam = s.faultNoRam := by
  unfold State.laOverflow
  split
  · simp
  · simp

@[simp] theorem State.laOverflow_refused (s : State) : s.laOverflow.refused = s.refused := by
  unfold State.laOverflow
  split
  · simp
  · simp

@[simp] theorem State.laOverflow_stor (s : State) : s.laOverflow.stor = s.stor := by
  unfold State.laOverflow
  split
  · simp
  · simp

@[simp] theorem State.laOverflow_past (s : State) : s.laOverflow.past = s.past := by
  unfold State.laOverflow
  split
  · simp
  · simp

@[simp] theorem State.laOverflow_host (s : State) : s.laOverflow.host = s.host := by
  unfold State.laOverflow
  split
  · simp
  · simp

@[simp] theorem State.laOverflow_ports (s : State) : s.laOverflow.ports = s.ports := by
  unfold State.laOverflow
  split
  · simp
  · simp

@[simp] theorem State.laOverflow_reads (s : State) : s.laOverflow.reads = s.reads := by
  unfold State.laOverflow
  split
  · simp
  · simp

@[simp] theorem State.laOverflow_draws (s : State) : s.laOverflow.draws = s.draws := by
  unfold State.laOverflow
  split
  · simp
  · simp

@[simp] theorem State.laOverflow_sched (s : State) : s.laOverflow.sched = s.sched := by
  unfold State.laOverflow
  split
  · simp
  · simp

/-! ## LA_EOL_NOISE -/

@[simp] theorem State.laEolNoise_cfg (s : State) : s.laEolNoise.cfg = s.cfg := by
  unfold State.laEolNoise
  split
  · simp
  · simp

@[simp] theorem State.laEolNoise_bq (s : State) : s.laEolNoise.bq = s.bq := by
  unfold State.laEolNoise
  split
  · simp
  · simp

@[simp] theorem State.laEolNoise_rxHold (s : State) : s.laEolNoise.rxHold = s.rxHold := by
  unfold State.laEolNoise
  split
  · simp
  · simp

@[simp] theorem State.laEolNoise_rq (s : State) : s.laEolNoise.rq = s.rq := by
  unfold State.laEolNoise
  split
  · simp
  · simp

@[simp] theorem State.laEolNoise_pm (s : State) : s.laEolNoise.pm = s.pm := by
  unfold State.laEolNoise
  split
  · simp
  · simp

@[simp] theorem State.laEolNoise_we (s : State) : s.laEolNoise.we = s.we := by
  unfold State.laEolNoise
  split
  · simp
  · simp

@[simp] theorem State.laEolNoise_sc (s : State) : s.laEolNoise.sc = s.sc := by
  unfold State.laEolNoise
  split
  · simp
  · simp

@[simp] theorem State.laEolNoise_cons (s : State) : s.laEolNoise.cons = s.cons := by
  unfold State.laEolNoise
  split
  · simp
  · simp

@[simp] theorem State.laEolNoise_faultNoRam (s : State) : s.laEolNoise.faultNoRam = s.faultNoRam := by
  unfold State.laEolNoise
  split
  · simp
  · simp

@[simp] theorem State.laEolNoise_refused (s : State) : s.laEolNoise.refused = s.refused := by
  unfold State.laEolNoise
  split
  · simp
  · simp

@[simp] theorem State.laEolNoise_stor (s : State) : s.laEolNoise.stor = s.stor := by
  unfold State.laEolNoise
  split
  · simp
  · simp

@[simp] theorem State.laEolNoise_past (s : State) : s.laEolNoise.past = s.past := by
  unfold State.laEolNoise
  split
  · simp
  · simp

@[simp] theorem State.laEolNoise_host (s : State) : s.laEolNoise.host = s.host := by
  unfold State.laEolNoise
  split
  · simp
  · simp

@[simp] theorem State.laEolNoise_ports (s : State) : s.laEolNoise.ports = s.ports := by
  unfold State.laEolNoise
  split
  · simp
  · simp

@[simp] theorem State.laEolNoise_reads (s : State) : s.laEolNoise.reads = s.reads := by
  unfold State.laEolNoise
  split
  · simp
  · simp

@[simp] theorem State.laEolNoise_draws (s : State) : s.laEolNoise.draws = s.draws := by
  unfold State.laEolNoise
  split
  · simp
  · simp

@[simp] theorem State.laEolNoise_sched (s : State) : s.laEolNoise.sched = s.sched := by
  unfold State.laEolNoise
  split
  · simp
  · simp

/-! ## LA_BYTE -/

@[simp] theorem State.laByte_cfg (s : State) (b : Byte) : (s.laByte b).cfg = s.cfg := by
  unfold State.laByte State.laAppend State.laEolEmit
  split
  all_goals simp

@[simp] theorem State.laByte_bq (s : State) (b : Byte) : (s.laByte b).bq = s.bq := by
  unfold State.laByte State.laAppend State.laEolEmit
  split
  all_goals simp

@[simp] theorem State.laByte_rxHold (s : State) (b : Byte) : (s.laByte b).rxHold = s.rxHold := by
  unfold State.laByte State.laAppend State.laEolEmit
  split
  all_goals simp

@[simp] theorem State.laByte_pm (s : State) (b : Byte) : (s.laByte b).pm = s.pm := by
  unfold State.laByte State.laAppend State.laEolEmit
  split
  all_goals simp

@[simp] theorem State.laByte_we (s : State) (b : Byte) : (s.laByte b).we = s.we := by
  unfold State.laByte State.laAppend State.laEolEmit
  split
  all_goals simp

@[simp] theorem State.laByte_sc (s : State) (b : Byte) : (s.laByte b).sc = s.sc := by
  unfold State.laByte State.laAppend State.laEolEmit
  split
  all_goals simp

@[simp] theorem State.laByte_cons (s : State) (b : Byte) : (s.laByte b).cons = s.cons := by
  unfold State.laByte State.laAppend State.laEolEmit
  split
  all_goals simp

@[simp] theorem State.laByte_faultNoRam (s : State) (b : Byte) : (s.laByte b).faultNoRam = s.faultNoRam := by
  unfold State.laByte State.laAppend State.laEolEmit
  split
  all_goals simp

@[simp] theorem State.laByte_refused (s : State) (b : Byte) : (s.laByte b).refused = s.refused := by
  unfold State.laByte State.laAppend State.laEolEmit
  split
  all_goals simp

@[simp] theorem State.laByte_stor (s : State) (b : Byte) : (s.laByte b).stor = s.stor := by
  unfold State.laByte State.laAppend State.laEolEmit
  split
  all_goals simp

@[simp] theorem State.laByte_past (s : State) (b : Byte) : (s.laByte b).past = s.past := by
  unfold State.laByte State.laAppend State.laEolEmit
  split
  all_goals simp

@[simp] theorem State.laByte_host (s : State) (b : Byte) : (s.laByte b).host = s.host := by
  unfold State.laByte State.laAppend State.laEolEmit
  split
  all_goals simp

@[simp] theorem State.laByte_ports (s : State) (b : Byte) : (s.laByte b).ports = s.ports := by
  unfold State.laByte State.laAppend State.laEolEmit
  split
  all_goals simp

@[simp] theorem State.laByte_reads (s : State) (b : Byte) : (s.laByte b).reads = s.reads := by
  unfold State.laByte State.laAppend State.laEolEmit
  split
  all_goals simp

@[simp] theorem State.laByte_draws (s : State) (b : Byte) : (s.laByte b).draws = s.draws := by
  unfold State.laByte State.laAppend State.laEolEmit
  split
  all_goals simp

@[simp] theorem State.laByte_sched (s : State) (b : Byte) : (s.laByte b).sched = s.sched := by
  unfold State.laByte State.laAppend State.laEolEmit
  split
  all_goals simp

/-! ## SC_ISSUE -/

@[simp] theorem State.scIssue_cfg (s : State) (op : StorageOp) (a : Addr) (d : Phrase) (ret : WaitRet) : (s.scIssue op a d ret).cfg = s.cfg := by
  unfold State.scIssue
  split
  · simp
  · simp

@[simp] theorem State.scIssue_bq (s : State) (op : StorageOp) (a : Addr) (d : Phrase) (ret : WaitRet) : (s.scIssue op a d ret).bq = s.bq := by
  unfold State.scIssue
  split
  · simp
  · simp

@[simp] theorem State.scIssue_rxHold (s : State) (op : StorageOp) (a : Addr) (d : Phrase) (ret : WaitRet) : (s.scIssue op a d ret).rxHold = s.rxHold := by
  unfold State.scIssue
  split
  · simp
  · simp

@[simp] theorem State.scIssue_la (s : State) (op : StorageOp) (a : Addr) (d : Phrase) (ret : WaitRet) : (s.scIssue op a d ret).la = s.la := by
  unfold State.scIssue
  split
  · simp
  · simp

@[simp] theorem State.scIssue_rq (s : State) (op : StorageOp) (a : Addr) (d : Phrase) (ret : WaitRet) : (s.scIssue op a d ret).rq = s.rq := by
  unfold State.scIssue
  split
  · simp
  · simp

@[simp] theorem State.scIssue_pm (s : State) (op : StorageOp) (a : Addr) (d : Phrase) (ret : WaitRet) : (s.scIssue op a d ret).pm = s.pm := by
  unfold State.scIssue
  split
  · simp
  · simp

@[simp] theorem State.scIssue_we (s : State) (op : StorageOp) (a : Addr) (d : Phrase) (ret : WaitRet) : (s.scIssue op a d ret).we = s.we := by
  unfold State.scIssue
  split
  · simp
  · simp

@[simp] theorem State.scIssue_lastErr (s : State) (op : StorageOp) (a : Addr) (d : Phrase) (ret : WaitRet) : (s.scIssue op a d ret).lastErr = s.lastErr := by
  unfold State.scIssue
  split
  · simp
  · simp

@[simp] theorem State.scIssue_refused (s : State) (op : StorageOp) (a : Addr) (d : Phrase) (ret : WaitRet) : (s.scIssue op a d ret).refused = s.refused := by
  unfold State.scIssue
  split
  · simp
  · simp

@[simp] theorem State.scIssue_stor (s : State) (op : StorageOp) (a : Addr) (d : Phrase) (ret : WaitRet) : (s.scIssue op a d ret).stor = s.stor := by
  unfold State.scIssue
  split
  · simp
  · simp

@[simp] theorem State.scIssue_past (s : State) (op : StorageOp) (a : Addr) (d : Phrase) (ret : WaitRet) : (s.scIssue op a d ret).past = s.past := by
  unfold State.scIssue
  split
  · simp
  · simp

@[simp] theorem State.scIssue_host (s : State) (op : StorageOp) (a : Addr) (d : Phrase) (ret : WaitRet) : (s.scIssue op a d ret).host = s.host := by
  unfold State.scIssue
  split
  · simp
  · simp

@[simp] theorem State.scIssue_reads (s : State) (op : StorageOp) (a : Addr) (d : Phrase) (ret : WaitRet) : (s.scIssue op a d ret).reads = s.reads := by
  unfold State.scIssue
  split
  · simp
  · simp

@[simp] theorem State.scIssue_draws (s : State) (op : StorageOp) (a : Addr) (d : Phrase) (ret : WaitRet) : (s.scIssue op a d ret).draws = s.draws := by
  unfold State.scIssue
  split
  · simp
  · simp

@[simp] theorem State.scIssue_sched (s : State) (op : StorageOp) (a : Addr) (d : Phrase) (ret : WaitRet) : (s.scIssue op a d ret).sched = s.sched := by
  unfold State.scIssue
  split
  · simp
  · simp

/-! ## ISSUE_PROGRAM8 -/

@[simp] theorem State.issueProgram8_cfg (s : State) (a : Addr) (d : Phrase) (ret : WaitRet) : (s.issueProgram8 a d ret).cfg = s.cfg := by
  unfold State.issueProgram8
  split
  · simp
  · simp

@[simp] theorem State.issueProgram8_bq (s : State) (a : Addr) (d : Phrase) (ret : WaitRet) : (s.issueProgram8 a d ret).bq = s.bq := by
  unfold State.issueProgram8
  split
  · simp
  · simp

@[simp] theorem State.issueProgram8_rxHold (s : State) (a : Addr) (d : Phrase) (ret : WaitRet) : (s.issueProgram8 a d ret).rxHold = s.rxHold := by
  unfold State.issueProgram8
  split
  · simp
  · simp

@[simp] theorem State.issueProgram8_la (s : State) (a : Addr) (d : Phrase) (ret : WaitRet) : (s.issueProgram8 a d ret).la = s.la := by
  unfold State.issueProgram8
  split
  · simp
  · simp

@[simp] theorem State.issueProgram8_rq (s : State) (a : Addr) (d : Phrase) (ret : WaitRet) : (s.issueProgram8 a d ret).rq = s.rq := by
  unfold State.issueProgram8
  split
  · simp
  · simp

@[simp] theorem State.issueProgram8_pm (s : State) (a : Addr) (d : Phrase) (ret : WaitRet) : (s.issueProgram8 a d ret).pm = s.pm := by
  unfold State.issueProgram8
  split
  · simp
  · simp

@[simp] theorem State.issueProgram8_we (s : State) (a : Addr) (d : Phrase) (ret : WaitRet) : (s.issueProgram8 a d ret).we = s.we := by
  unfold State.issueProgram8
  split
  · simp
  · simp

@[simp] theorem State.issueProgram8_refused (s : State) (a : Addr) (d : Phrase) (ret : WaitRet) : (s.issueProgram8 a d ret).refused = s.refused := by
  unfold State.issueProgram8
  split
  · simp
  · simp

@[simp] theorem State.issueProgram8_stor (s : State) (a : Addr) (d : Phrase) (ret : WaitRet) : (s.issueProgram8 a d ret).stor = s.stor := by
  unfold State.issueProgram8
  split
  · simp
  · simp

@[simp] theorem State.issueProgram8_past (s : State) (a : Addr) (d : Phrase) (ret : WaitRet) : (s.issueProgram8 a d ret).past = s.past := by
  unfold State.issueProgram8
  split
  · simp
  · simp

@[simp] theorem State.issueProgram8_host (s : State) (a : Addr) (d : Phrase) (ret : WaitRet) : (s.issueProgram8 a d ret).host = s.host := by
  unfold State.issueProgram8
  split
  · simp
  · simp

@[simp] theorem State.issueProgram8_reads (s : State) (a : Addr) (d : Phrase) (ret : WaitRet) : (s.issueProgram8 a d ret).reads = s.reads := by
  unfold State.issueProgram8
  split
  · simp
  · simp

@[simp] theorem State.issueProgram8_draws (s : State) (a : Addr) (d : Phrase) (ret : WaitRet) : (s.issueProgram8 a d ret).draws = s.draws := by
  unfold State.issueProgram8
  split
  · simp
  · simp

@[simp] theorem State.issueProgram8_sched (s : State) (a : Addr) (d : Phrase) (ret : WaitRet) : (s.issueProgram8 a d ret).sched = s.sched := by
  unfold State.issueProgram8
  split
  · simp
  · simp

/-! ## WE_CASE_A -/

@[simp] theorem State.stash_cfg (s : State) : s.stash.cfg = s.cfg := by
  unfold State.stash
  split
  · simp
  · simp

@[simp] theorem State.stash_bq (s : State) : s.stash.bq = s.bq := by
  unfold State.stash
  split
  · simp
  · simp

@[simp] theorem State.stash_rxHold (s : State) : s.stash.rxHold = s.rxHold := by
  unfold State.stash
  split
  · simp
  · simp

@[simp] theorem State.stash_la (s : State) : s.stash.la = s.la := by
  unfold State.stash
  split
  · simp
  · simp

@[simp] theorem State.stash_rq (s : State) : s.stash.rq = s.rq := by
  unfold State.stash
  split
  · simp
  · simp

@[simp] theorem State.stash_sc (s : State) : s.stash.sc = s.sc := by
  unfold State.stash
  split
  · simp
  · simp

@[simp] theorem State.stash_cons (s : State) : s.stash.cons = s.cons := by
  unfold State.stash
  split
  · simp
  · simp

@[simp] theorem State.stash_faultNoRam (s : State) : s.stash.faultNoRam = s.faultNoRam := by
  unfold State.stash
  split
  · simp
  · simp

@[simp] theorem State.stash_refused (s : State) : s.stash.refused = s.refused := by
  unfold State.stash
  split
  · simp
  · simp

@[simp] theorem State.stash_stor (s : State) : s.stash.stor = s.stor := by
  unfold State.stash
  split
  · simp
  · simp

@[simp] theorem State.stash_past (s : State) : s.stash.past = s.past := by
  unfold State.stash
  split
  · simp
  · simp

@[simp] theorem State.stash_host (s : State) : s.stash.host = s.host := by
  unfold State.stash
  split
  · simp
  · simp

@[simp] theorem State.stash_ports (s : State) : s.stash.ports = s.ports := by
  unfold State.stash
  split
  · simp
  · simp

@[simp] theorem State.stash_reads (s : State) : s.stash.reads = s.reads := by
  unfold State.stash
  split
  · simp
  · simp

@[simp] theorem State.stash_draws (s : State) : s.stash.draws = s.draws := by
  unfold State.stash
  split
  · simp
  · simp

@[simp] theorem State.stash_sched (s : State) : s.stash.sched = s.sched := by
  unfold State.stash
  split
  · simp
  · simp

/-! ## WE_CASE_B -/

@[simp] theorem State.useMerge_cfg (s : State) : s.useMerge.cfg = s.cfg := by
  unfold State.useMerge
  split
  · simp
  · simp

@[simp] theorem State.useMerge_bq (s : State) : s.useMerge.bq = s.bq := by
  unfold State.useMerge
  split
  · simp
  · simp

@[simp] theorem State.useMerge_rxHold (s : State) : s.useMerge.rxHold = s.rxHold := by
  unfold State.useMerge
  split
  · simp
  · simp

@[simp] theorem State.useMerge_la (s : State) : s.useMerge.la = s.la := by
  unfold State.useMerge
  split
  · simp
  · simp

@[simp] theorem State.useMerge_rq (s : State) : s.useMerge.rq = s.rq := by
  unfold State.useMerge
  split
  · simp
  · simp

@[simp] theorem State.useMerge_sc (s : State) : s.useMerge.sc = s.sc := by
  unfold State.useMerge
  split
  · simp
  · simp

@[simp] theorem State.useMerge_cons (s : State) : s.useMerge.cons = s.cons := by
  unfold State.useMerge
  split
  · simp
  · simp

@[simp] theorem State.useMerge_faultNoRam (s : State) : s.useMerge.faultNoRam = s.faultNoRam := by
  unfold State.useMerge
  split
  · simp
  · simp

@[simp] theorem State.useMerge_refused (s : State) : s.useMerge.refused = s.refused := by
  unfold State.useMerge
  split
  · simp
  · simp

@[simp] theorem State.useMerge_stor (s : State) : s.useMerge.stor = s.stor := by
  unfold State.useMerge
  split
  · simp
  · simp

@[simp] theorem State.useMerge_past (s : State) : s.useMerge.past = s.past := by
  unfold State.useMerge
  split
  · simp
  · simp

@[simp] theorem State.useMerge_host (s : State) : s.useMerge.host = s.host := by
  unfold State.useMerge
  split
  · simp
  · simp

@[simp] theorem State.useMerge_ports (s : State) : s.useMerge.ports = s.ports := by
  unfold State.useMerge
  split
  · simp
  · simp

@[simp] theorem State.useMerge_reads (s : State) : s.useMerge.reads = s.reads := by
  unfold State.useMerge
  split
  · simp
  · simp

@[simp] theorem State.useMerge_draws (s : State) : s.useMerge.draws = s.draws := by
  unfold State.useMerge
  split
  · simp
  · simp

@[simp] theorem State.useMerge_sched (s : State) : s.useMerge.sched = s.sched := by
  unfold State.useMerge
  split
  · simp
  · simp

@[simp] theorem State.useMerge_pm (s : State) : s.useMerge.pm = { s.pm with valid := false } := rfl

@[simp] theorem State.useMerge_we (s : State) :
    s.useMerge.we = { addr := s.we.addr + 4, data := s.we.data.drop 4 } := by
  unfold State.useMerge
  split
  · rfl
  · rfl

@[simp] theorem State.mergeHigh_cfg (s : State) : s.mergeHigh.cfg = s.cfg := by
  unfold State.mergeHigh
  simp

@[simp] theorem State.mergeHigh_bq (s : State) : s.mergeHigh.bq = s.bq := by
  unfold State.mergeHigh
  simp

@[simp] theorem State.mergeHigh_rxHold (s : State) : s.mergeHigh.rxHold = s.rxHold := by
  unfold State.mergeHigh
  simp

@[simp] theorem State.mergeHigh_la (s : State) : s.mergeHigh.la = s.la := by
  unfold State.mergeHigh
  simp

@[simp] theorem State.mergeHigh_rq (s : State) : s.mergeHigh.rq = s.rq := by
  unfold State.mergeHigh
  simp

@[simp] theorem State.mergeHigh_refused (s : State) : s.mergeHigh.refused = s.refused := by
  unfold State.mergeHigh
  simp

@[simp] theorem State.mergeHigh_stor (s : State) : s.mergeHigh.stor = s.stor := by
  unfold State.mergeHigh
  simp

@[simp] theorem State.mergeHigh_past (s : State) : s.mergeHigh.past = s.past := by
  unfold State.mergeHigh
  simp

@[simp] theorem State.mergeHigh_host (s : State) : s.mergeHigh.host = s.host := by
  unfold State.mergeHigh
  simp

@[simp] theorem State.mergeHigh_reads (s : State) : s.mergeHigh.reads = s.reads := by
  unfold State.mergeHigh
  simp

@[simp] theorem State.mergeHigh_draws (s : State) : s.mergeHigh.draws = s.draws := by
  unfold State.mergeHigh
  simp

@[simp] theorem State.mergeHigh_sched (s : State) : s.mergeHigh.sched = s.sched := by
  unfold State.mergeHigh
  simp

@[simp] theorem State.mergeHigh_pm (s : State) : s.mergeHigh.pm = { s.pm with valid := false } := by
  unfold State.mergeHigh
  simp

/-! ## WE_CASE_C -/

@[simp] theorem State.programWhole_cfg (s : State) : s.programWhole.cfg = s.cfg := by
  unfold State.programWhole
  simp

@[simp] theorem State.programWhole_bq (s : State) : s.programWhole.bq = s.bq := by
  unfold State.programWhole
  simp

@[simp] theorem State.programWhole_rxHold (s : State) : s.programWhole.rxHold = s.rxHold := by
  unfold State.programWhole
  simp

@[simp] theorem State.programWhole_la (s : State) : s.programWhole.la = s.la := by
  unfold State.programWhole
  simp

@[simp] theorem State.programWhole_rq (s : State) : s.programWhole.rq = s.rq := by
  unfold State.programWhole
  simp

@[simp] theorem State.programWhole_pm (s : State) : s.programWhole.pm = s.pm := by
  unfold State.programWhole
  simp

@[simp] theorem State.programWhole_refused (s : State) : s.programWhole.refused = s.refused := by
  unfold State.programWhole
  simp

@[simp] theorem State.programWhole_stor (s : State) : s.programWhole.stor = s.stor := by
  unfold State.programWhole
  simp

@[simp] theorem State.programWhole_past (s : State) : s.programWhole.past = s.past := by
  unfold State.programWhole
  simp

@[simp] theorem State.programWhole_host (s : State) : s.programWhole.host = s.host := by
  unfold State.programWhole
  simp

@[simp] theorem State.programWhole_reads (s : State) : s.programWhole.reads = s.reads := by
  unfold State.programWhole
  simp

@[simp] theorem State.programWhole_draws (s : State) : s.programWhole.draws = s.draws := by
  unfold State.programWhole
  simp

@[simp] theorem State.programWhole_sched (s : State) : s.programWhole.sched = s.sched := by
  unfold State.programWhole
  simp

/-! ## WE_END -/

@[simp] theorem State.announceEnd_cfg (s : State) : s.announceEnd.cfg = s.cfg := by
  unfold State.announceEnd
  split
  · simp
  · simp

@[simp] theorem State.announceEnd_bq (s : State) : s.announceEnd.bq = s.bq := by
  unfold State.announceEnd
  split
  · simp
  · simp

@[simp] theorem State.announceEnd_rxHold (s : State) : s.announceEnd.rxHold = s.rxHold := by
  unfold State.announceEnd
  split
  · simp
  · simp

@[simp] theorem State.announceEnd_la (s : State) : s.announceEnd.la = s.la := by
  unfold State.announceEnd
  split
  · simp
  · simp

@[simp] theorem State.announceEnd_rq (s : State) : s.announceEnd.rq = s.rq := by
  unfold State.announceEnd
  split
  · simp
  · simp

@[simp] theorem State.announceEnd_pm (s : State) : s.announceEnd.pm = s.pm := by
  unfold State.announceEnd
  split
  · simp
  · simp

@[simp] theorem State.announceEnd_we (s : State) : s.announceEnd.we = s.we := by
  unfold State.announceEnd
  split
  · simp
  · simp

@[simp] theorem State.announceEnd_sc (s : State) : s.announceEnd.sc = s.sc := by
  unfold State.announceEnd
  split
  · simp
  · simp

@[simp] theorem State.announceEnd_cnt (s : State) : s.announceEnd.cnt = s.cnt := by
  unfold State.announceEnd
  split
  · simp
  · simp

@[simp] theorem State.announceEnd_lastErr (s : State) : s.announceEnd.lastErr = s.lastErr := by
  unfold State.announceEnd
  split
  · simp
  · simp

@[simp] theorem State.announceEnd_faultNoRam (s : State) : s.announceEnd.faultNoRam = s.faultNoRam := by
  unfold State.announceEnd
  split
  · simp
  · simp

@[simp] theorem State.announceEnd_refused (s : State) : s.announceEnd.refused = s.refused := by
  unfold State.announceEnd
  split
  · simp
  · simp

@[simp] theorem State.announceEnd_stor (s : State) : s.announceEnd.stor = s.stor := by
  unfold State.announceEnd
  split
  · simp
  · simp

@[simp] theorem State.announceEnd_past (s : State) : s.announceEnd.past = s.past := by
  unfold State.announceEnd
  split
  · simp
  · simp

@[simp] theorem State.announceEnd_host (s : State) : s.announceEnd.host = s.host := by
  unfold State.announceEnd
  split
  · simp
  · simp

@[simp] theorem State.announceEnd_reads (s : State) : s.announceEnd.reads = s.reads := by
  unfold State.announceEnd
  split
  · simp
  · simp

@[simp] theorem State.announceEnd_draws (s : State) : s.announceEnd.draws = s.draws := by
  unfold State.announceEnd
  split
  · simp
  · simp

@[simp] theorem State.announceEnd_sched (s : State) : s.announceEnd.sched = s.sched := by
  unfold State.announceEnd
  split
  · simp
  · simp

@[simp] theorem State.endTransfer_cfg (s : State) : s.endTransfer.cfg = s.cfg := by
  unfold State.endTransfer State.endReset
  split
  · simp
  · simp

@[simp] theorem State.endTransfer_bq (s : State) : s.endTransfer.bq = s.bq := by
  unfold State.endTransfer State.endReset
  split
  · simp
  · simp

@[simp] theorem State.endTransfer_rxHold (s : State) : s.endTransfer.rxHold = s.rxHold := by
  unfold State.endTransfer State.endReset
  split
  · simp
  · simp

@[simp] theorem State.endTransfer_we (s : State) : s.endTransfer.we = s.we := by
  unfold State.endTransfer State.endReset
  split
  · simp
  · simp

@[simp] theorem State.endTransfer_refused (s : State) : s.endTransfer.refused = s.refused := by
  unfold State.endTransfer State.endReset
  split
  · simp
  · simp

@[simp] theorem State.endTransfer_stor (s : State) : s.endTransfer.stor = s.stor := by
  unfold State.endTransfer State.endReset
  split
  · simp
  · simp

@[simp] theorem State.endTransfer_past (s : State) : s.endTransfer.past = s.past := by
  unfold State.endTransfer State.endReset
  split
  · simp
  · simp

@[simp] theorem State.endTransfer_host (s : State) : s.endTransfer.host = s.host := by
  unfold State.endTransfer State.endReset
  split
  · simp
  · simp

@[simp] theorem State.endTransfer_reads (s : State) : s.endTransfer.reads = s.reads := by
  unfold State.endTransfer State.endReset
  split
  · simp
  · simp

@[simp] theorem State.endTransfer_draws (s : State) : s.endTransfer.draws = s.draws := by
  unfold State.endTransfer State.endReset
  split
  · simp
  · simp

@[simp] theorem State.endTransfer_sched (s : State) : s.endTransfer.sched = s.sched := by
  unfold State.endTransfer State.endReset
  split
  · simp
  · simp

@[simp] theorem State.endTransfer_la (s : State) : s.endTransfer.la = { buf := [], skip := false } := by
  unfold State.endTransfer State.endReset
  split
  · simp
  · simp

@[simp] theorem State.endTransfer_rq (s : State) : s.endTransfer.rq = [] := by
  unfold State.endTransfer State.endReset
  split
  · simp
  · simp

@[simp] theorem State.endTransfer_pm (s : State) : s.endTransfer.pm = { s.pm with valid := false } := by
  unfold State.endTransfer State.endReset
  split
  · simp
  · simp

/-! ## WE_RECORD -/

@[simp] theorem State.takeData_cfg (s : State) (r : Record) : (s.takeData r).cfg = s.cfg := by
  unfold State.takeData
  split
  · simp
  · simp

@[simp] theorem State.takeData_bq (s : State) (r : Record) : (s.takeData r).bq = s.bq := by
  unfold State.takeData
  split
  · simp
  · simp

@[simp] theorem State.takeData_rxHold (s : State) (r : Record) : (s.takeData r).rxHold = s.rxHold := by
  unfold State.takeData
  split
  · simp
  · simp

@[simp] theorem State.takeData_la (s : State) (r : Record) : (s.takeData r).la = s.la := by
  unfold State.takeData
  split
  · simp
  · simp

@[simp] theorem State.takeData_rq (s : State) (r : Record) : (s.takeData r).rq = s.rq := by
  unfold State.takeData
  split
  · simp
  · simp

@[simp] theorem State.takeData_pm (s : State) (r : Record) : (s.takeData r).pm = s.pm := by
  unfold State.takeData
  split
  · simp
  · simp

@[simp] theorem State.takeData_sc (s : State) (r : Record) : (s.takeData r).sc = s.sc := by
  unfold State.takeData
  split
  · simp
  · simp

@[simp] theorem State.takeData_lastErr (s : State) (r : Record) : (s.takeData r).lastErr = s.lastErr := by
  unfold State.takeData
  split
  · simp
  · simp

@[simp] theorem State.takeData_faultNoRam (s : State) (r : Record) : (s.takeData r).faultNoRam = s.faultNoRam := by
  unfold State.takeData
  split
  · simp
  · simp

@[simp] theorem State.takeData_refused (s : State) (r : Record) : (s.takeData r).refused = s.refused := by
  unfold State.takeData
  split
  · simp
  · simp

@[simp] theorem State.takeData_stor (s : State) (r : Record) : (s.takeData r).stor = s.stor := by
  unfold State.takeData
  split
  · simp
  · simp

@[simp] theorem State.takeData_past (s : State) (r : Record) : (s.takeData r).past = s.past := by
  unfold State.takeData
  split
  · simp
  · simp

@[simp] theorem State.takeData_host (s : State) (r : Record) : (s.takeData r).host = s.host := by
  unfold State.takeData
  split
  · simp
  · simp

@[simp] theorem State.takeData_ports (s : State) (r : Record) : (s.takeData r).ports = s.ports := by
  unfold State.takeData
  split
  · simp
  · simp

@[simp] theorem State.takeData_reads (s : State) (r : Record) : (s.takeData r).reads = s.reads := by
  unfold State.takeData
  split
  · simp
  · simp

@[simp] theorem State.takeData_draws (s : State) (r : Record) : (s.takeData r).draws = s.draws := by
  unfold State.takeData
  split
  · simp
  · simp

@[simp] theorem State.takeData_sched (s : State) (r : Record) : (s.takeData r).sched = s.sched := by
  unfold State.takeData
  split
  · simp
  · simp

/-! What routing leaves. -/

@[simp] theorem State.routeRecord_cfg (s : State) (r : Record) : (s.routeRecord r).cfg = s.cfg := by
  rcases s.routeRecord_cases r with ⟨e, -, h⟩ | h | h <;> rw [h] <;> simp

@[simp] theorem State.routeRecord_bq (s : State) (r : Record) : (s.routeRecord r).bq = s.bq := by
  rcases s.routeRecord_cases r with ⟨e, -, h⟩ | h | h <;> rw [h] <;> simp

@[simp] theorem State.routeRecord_rxHold (s : State) (r : Record) : (s.routeRecord r).rxHold = s.rxHold := by
  rcases s.routeRecord_cases r with ⟨e, -, h⟩ | h | h <;> rw [h] <;> simp

@[simp] theorem State.routeRecord_refused (s : State) (r : Record) : (s.routeRecord r).refused = s.refused := by
  rcases s.routeRecord_cases r with ⟨e, -, h⟩ | h | h <;> rw [h] <;> simp

@[simp] theorem State.routeRecord_stor (s : State) (r : Record) : (s.routeRecord r).stor = s.stor := by
  rcases s.routeRecord_cases r with ⟨e, -, h⟩ | h | h <;> rw [h] <;> simp

@[simp] theorem State.routeRecord_past (s : State) (r : Record) : (s.routeRecord r).past = s.past := by
  rcases s.routeRecord_cases r with ⟨e, -, h⟩ | h | h <;> rw [h] <;> simp

@[simp] theorem State.routeRecord_host (s : State) (r : Record) : (s.routeRecord r).host = s.host := by
  rcases s.routeRecord_cases r with ⟨e, -, h⟩ | h | h <;> rw [h] <;> simp

@[simp] theorem State.routeRecord_reads (s : State) (r : Record) : (s.routeRecord r).reads = s.reads := by
  rcases s.routeRecord_cases r with ⟨e, -, h⟩ | h | h <;> rw [h] <;> simp

@[simp] theorem State.routeRecord_draws (s : State) (r : Record) : (s.routeRecord r).draws = s.draws := by
  rcases s.routeRecord_cases r with ⟨e, -, h⟩ | h | h <;> rw [h] <;> simp

@[simp] theorem State.routeRecord_sched (s : State) (r : Record) : (s.routeRecord r).sched = s.sched := by
  rcases s.routeRecord_cases r with ⟨e, -, h⟩ | h | h <;> rw [h] <;> simp

/-! ## SC_DONE -/

@[simp] theorem State.programEffect_sc (s : State) (a : Addr) (d : Phrase) (st : Status) :
    (s.programEffect a d st).sc = s.sc := by
  unfold State.programEffect
  split
  · rfl
  · rfl

@[simp] theorem State.arrayEffect_cfg (s : State) (st : Status) : (s.arrayEffect st).cfg = s.cfg := by
  unfold State.arrayEffect State.programEffect State.eraseEffect
  split <;> split <;> rfl

@[simp] theorem State.arrayEffect_bq (s : State) (st : Status) : (s.arrayEffect st).bq = s.bq := by
  unfold State.arrayEffect State.programEffect State.eraseEffect
  split <;> split <;> rfl

@[simp] theorem State.arrayEffect_rxHold (s : State) (st : Status) : (s.arrayEffect st).rxHold = s.rxHold := by
  unfold State.arrayEffect State.programEffect State.eraseEffect
  split <;> split <;> rfl

@[simp] theorem State.arrayEffect_la (s : State) (st : Status) : (s.arrayEffect st).la = s.la := by
  unfold State.arrayEffect State.programEffect State.eraseEffect
  split <;> split <;> rfl

@[simp] theorem State.arrayEffect_rq (s : State) (st : Status) : (s.arrayEffect st).rq = s.rq := by
  unfold State.arrayEffect State.programEffect State.eraseEffect
  split <;> split <;> rfl

@[simp] theorem State.arrayEffect_pm (s : State) (st : Status) : (s.arrayEffect st).pm = s.pm := by
  unfold State.arrayEffect State.programEffect State.eraseEffect
  split <;> split <;> rfl

@[simp] theorem State.arrayEffect_we (s : State) (st : Status) : (s.arrayEffect st).we = s.we := by
  unfold State.arrayEffect State.programEffect State.eraseEffect
  split <;> split <;> rfl

@[simp] theorem State.arrayEffect_sc (s : State) (st : Status) : (s.arrayEffect st).sc = s.sc := by
  unfold State.arrayEffect State.programEffect State.eraseEffect
  split <;> split <;> rfl

@[simp] theorem State.arrayEffect_cons (s : State) (st : Status) : (s.arrayEffect st).cons = s.cons := by
  unfold State.arrayEffect State.programEffect State.eraseEffect
  split <;> split <;> rfl

@[simp] theorem State.arrayEffect_cnt (s : State) (st : Status) : (s.arrayEffect st).cnt = s.cnt := by
  unfold State.arrayEffect State.programEffect State.eraseEffect
  split <;> split <;> rfl

@[simp] theorem State.arrayEffect_lastErr (s : State) (st : Status) : (s.arrayEffect st).lastErr = s.lastErr := by
  unfold State.arrayEffect State.programEffect State.eraseEffect
  split <;> split <;> rfl

@[simp] theorem State.arrayEffect_faultNoRam (s : State) (st : Status) : (s.arrayEffect st).faultNoRam = s.faultNoRam := by
  unfold State.arrayEffect State.programEffect State.eraseEffect
  split <;> split <;> rfl

@[simp] theorem State.arrayEffect_refused (s : State) (st : Status) : (s.arrayEffect st).refused = s.refused := by
  unfold State.arrayEffect State.programEffect State.eraseEffect
  split <;> split <;> rfl

@[simp] theorem State.arrayEffect_past (s : State) (st : Status) : (s.arrayEffect st).past = s.past := by
  unfold State.arrayEffect State.programEffect State.eraseEffect
  split <;> split <;> rfl

@[simp] theorem State.arrayEffect_host (s : State) (st : Status) : (s.arrayEffect st).host = s.host := by
  unfold State.arrayEffect State.programEffect State.eraseEffect
  split <;> split <;> rfl

@[simp] theorem State.arrayEffect_ports (s : State) (st : Status) : (s.arrayEffect st).ports = s.ports := by
  unfold State.arrayEffect State.programEffect State.eraseEffect
  split <;> split <;> rfl

@[simp] theorem State.arrayEffect_reads (s : State) (st : Status) : (s.arrayEffect st).reads = s.reads := by
  unfold State.arrayEffect State.programEffect State.eraseEffect
  split <;> split <;> rfl

@[simp] theorem State.arrayEffect_sched (s : State) (st : Status) : (s.arrayEffect st).sched = s.sched := by
  unfold State.arrayEffect State.programEffect State.eraseEffect
  split <;> split <;> rfl

@[simp] theorem State.commandEffect_cfg (s : State) (st : Status) : (s.commandEffect st).cfg = s.cfg :=
  s.arrayEffect_cfg st

@[simp] theorem State.commandEffect_bq (s : State) (st : Status) : (s.commandEffect st).bq = s.bq :=
  s.arrayEffect_bq st

@[simp] theorem State.commandEffect_rxHold (s : State) (st : Status) : (s.commandEffect st).rxHold = s.rxHold :=
  s.arrayEffect_rxHold st

@[simp] theorem State.commandEffect_la (s : State) (st : Status) : (s.commandEffect st).la = s.la :=
  s.arrayEffect_la st

@[simp] theorem State.commandEffect_rq (s : State) (st : Status) : (s.commandEffect st).rq = s.rq :=
  s.arrayEffect_rq st

@[simp] theorem State.commandEffect_pm (s : State) (st : Status) : (s.commandEffect st).pm = s.pm :=
  s.arrayEffect_pm st

@[simp] theorem State.commandEffect_we (s : State) (st : Status) : (s.commandEffect st).we = s.we :=
  s.arrayEffect_we st

@[simp] theorem State.commandEffect_sc (s : State) (st : Status) : (s.commandEffect st).sc = s.sc :=
  s.arrayEffect_sc st

@[simp] theorem State.commandEffect_cons (s : State) (st : Status) : (s.commandEffect st).cons = s.cons :=
  s.arrayEffect_cons st

@[simp] theorem State.commandEffect_cnt (s : State) (st : Status) : (s.commandEffect st).cnt = s.cnt :=
  s.arrayEffect_cnt st

@[simp] theorem State.commandEffect_lastErr (s : State) (st : Status) : (s.commandEffect st).lastErr = s.lastErr :=
  s.arrayEffect_lastErr st

@[simp] theorem State.commandEffect_faultNoRam (s : State) (st : Status) : (s.commandEffect st).faultNoRam = s.faultNoRam :=
  s.arrayEffect_faultNoRam st

@[simp] theorem State.commandEffect_refused (s : State) (st : Status) : (s.commandEffect st).refused = s.refused :=
  s.arrayEffect_refused st

@[simp] theorem State.commandEffect_stor (s : State) (st : Status) : (s.commandEffect st).stor = (s.arrayEffect st).stor :=
  rfl

@[simp] theorem State.commandEffect_past (s : State) (st : Status) : (s.commandEffect st).past = s.stor :: s.past :=
  rfl

@[simp] theorem State.commandEffect_host (s : State) (st : Status) : (s.commandEffect st).host = s.host :=
  s.arrayEffect_host st

@[simp] theorem State.commandEffect_ports (s : State) (st : Status) : (s.commandEffect st).ports = s.ports :=
  s.arrayEffect_ports st

@[simp] theorem State.commandEffect_reads (s : State) (st : Status) : (s.commandEffect st).reads = s.reads :=
  s.arrayEffect_reads st

@[simp] theorem State.commandEffect_draws (s : State) (st : Status) : (s.commandEffect st).draws = (s.arrayEffect st).draws :=
  rfl

@[simp] theorem State.commandEffect_sched (s : State) (st : Status) : (s.commandEffect st).sched = s.sched :=
  s.arrayEffect_sched st

@[simp] theorem State.noteStatus_cfg (s : State) (st : Status) : (s.noteStatus st).cfg = s.cfg := by
  cases st <;> rfl

@[simp] theorem State.noteStatus_bq (s : State) (st : Status) : (s.noteStatus st).bq = s.bq := by
  cases st <;> rfl

@[simp] theorem State.noteStatus_rxHold (s : State) (st : Status) : (s.noteStatus st).rxHold = s.rxHold := by
  cases st <;> rfl

@[simp] theorem State.noteStatus_la (s : State) (st : Status) : (s.noteStatus st).la = s.la := by
  cases st <;> rfl

@[simp] theorem State.noteStatus_rq (s : State) (st : Status) : (s.noteStatus st).rq = s.rq := by
  cases st <;> rfl

@[simp] theorem State.noteStatus_pm (s : State) (st : Status) : (s.noteStatus st).pm = s.pm := by
  cases st <;> rfl

@[simp] theorem State.noteStatus_we (s : State) (st : Status) : (s.noteStatus st).we = s.we := by
  cases st <;> rfl

@[simp] theorem State.noteStatus_cons (s : State) (st : Status) : (s.noteStatus st).cons = s.cons := by
  cases st <;> rfl

@[simp] theorem State.noteStatus_faultNoRam (s : State) (st : Status) : (s.noteStatus st).faultNoRam = s.faultNoRam := by
  cases st <;> rfl

@[simp] theorem State.noteStatus_refused (s : State) (st : Status) : (s.noteStatus st).refused = s.refused := by
  cases st <;> rfl

@[simp] theorem State.noteStatus_stor (s : State) (st : Status) : (s.noteStatus st).stor = s.stor := by
  cases st <;> rfl

@[simp] theorem State.noteStatus_past (s : State) (st : Status) : (s.noteStatus st).past = s.past := by
  cases st <;> rfl

@[simp] theorem State.noteStatus_host (s : State) (st : Status) : (s.noteStatus st).host = s.host := by
  cases st <;> rfl

@[simp] theorem State.noteStatus_ports (s : State) (st : Status) : (s.noteStatus st).ports = s.ports := by
  cases st <;> rfl

@[simp] theorem State.noteStatus_reads (s : State) (st : Status) : (s.noteStatus st).reads = s.reads := by
  cases st <;> rfl

@[simp] theorem State.noteStatus_draws (s : State) (st : Status) : (s.noteStatus st).draws = s.draws := by
  cases st <;> rfl

@[simp] theorem State.noteStatus_sched (s : State) (st : Status) : (s.noteStatus st).sched = s.sched := by
  cases st <;> rfl

@[simp] theorem State.afterDone_cfg (s : State) (st : Status) : (s.afterDone st).cfg = s.cfg := by
  unfold State.afterDone
  split <;> rfl

@[simp] theorem State.afterDone_bq (s : State) (st : Status) : (s.afterDone st).bq = s.bq := by
  unfold State.afterDone
  split <;> rfl

@[simp] theorem State.afterDone_rxHold (s : State) (st : Status) : (s.afterDone st).rxHold = s.rxHold := by
  unfold State.afterDone
  split <;> rfl

@[simp] theorem State.afterDone_la (s : State) (st : Status) : (s.afterDone st).la = s.la := by
  unfold State.afterDone
  split <;> rfl

@[simp] theorem State.afterDone_rq (s : State) (st : Status) : (s.afterDone st).rq = s.rq := by
  unfold State.afterDone
  split <;> rfl

@[simp] theorem State.afterDone_pm (s : State) (st : Status) : (s.afterDone st).pm = s.pm := by
  unfold State.afterDone
  split <;> rfl

@[simp] theorem State.afterDone_we (s : State) (st : Status) : (s.afterDone st).we = s.we := by
  unfold State.afterDone
  split <;> rfl

@[simp] theorem State.afterDone_cnt (s : State) (st : Status) : (s.afterDone st).cnt = s.cnt := by
  unfold State.afterDone
  split <;> rfl

@[simp] theorem State.afterDone_lastErr (s : State) (st : Status) : (s.afterDone st).lastErr = s.lastErr := by
  unfold State.afterDone
  split <;> rfl

@[simp] theorem State.afterDone_faultNoRam (s : State) (st : Status) : (s.afterDone st).faultNoRam = s.faultNoRam := by
  unfold State.afterDone
  split <;> rfl

@[simp] theorem State.afterDone_refused (s : State) (st : Status) : (s.afterDone st).refused = s.refused := by
  unfold State.afterDone
  split <;> rfl

@[simp] theorem State.afterDone_stor (s : State) (st : Status) : (s.afterDone st).stor = s.stor := by
  unfold State.afterDone
  split <;> rfl

@[simp] theorem State.afterDone_past (s : State) (st : Status) : (s.afterDone st).past = s.past := by
  unfold State.afterDone
  split <;> rfl

@[simp] theorem State.afterDone_host (s : State) (st : Status) : (s.afterDone st).host = s.host := by
  unfold State.afterDone
  split <;> rfl

@[simp] theorem State.afterDone_reads (s : State) (st : Status) : (s.afterDone st).reads = s.reads := by
  unfold State.afterDone
  split <;> rfl

@[simp] theorem State.afterDone_draws (s : State) (st : Status) : (s.afterDone st).draws = s.draws := by
  unfold State.afterDone
  split <;> rfl

@[simp] theorem State.afterDone_sched (s : State) (st : Status) : (s.afterDone st).sched = s.sched := by
  unfold State.afterDone
  split <;> rfl

@[simp] theorem State.completeCommand_cfg (s : State) (st : Status) : (s.completeCommand st).cfg = s.cfg := by
  simp [State.completeCommand]

@[simp] theorem State.completeCommand_bq (s : State) (st : Status) : (s.completeCommand st).bq = s.bq := by
  simp [State.completeCommand]

@[simp] theorem State.completeCommand_rxHold (s : State) (st : Status) : (s.completeCommand st).rxHold = s.rxHold := by
  simp [State.completeCommand]

@[simp] theorem State.completeCommand_la (s : State) (st : Status) : (s.completeCommand st).la = s.la := by
  simp [State.completeCommand]

@[simp] theorem State.completeCommand_rq (s : State) (st : Status) : (s.completeCommand st).rq = s.rq := by
  simp [State.completeCommand]

@[simp] theorem State.completeCommand_pm (s : State) (st : Status) : (s.completeCommand st).pm = s.pm := by
  simp [State.completeCommand]

@[simp] theorem State.completeCommand_we (s : State) (st : Status) : (s.completeCommand st).we = s.we := by
  simp [State.completeCommand]

@[simp] theorem State.completeCommand_faultNoRam (s : State) (st : Status) : (s.completeCommand st).faultNoRam = s.faultNoRam := by
  simp [State.completeCommand]

@[simp] theorem State.completeCommand_refused (s : State) (st : Status) : (s.completeCommand st).refused = s.refused := by
  simp [State.completeCommand]

@[simp] theorem State.completeCommand_host (s : State) (st : Status) : (s.completeCommand st).host = s.host := by
  simp [State.completeCommand]

@[simp] theorem State.completeCommand_reads (s : State) (st : Status) : (s.completeCommand st).reads = s.reads := by
  simp [State.completeCommand]

@[simp] theorem State.completeCommand_sched (s : State) (st : Status) : (s.completeCommand st).sched = s.sched := by
  simp [State.completeCommand]

@[simp] theorem State.completeCommand_stor (s : State) (st : Status) :
    (s.completeCommand st).stor = (s.arrayEffect st).stor := by
  simp [State.completeCommand]

@[simp] theorem State.completeCommand_past (s : State) (st : Status) :
    (s.completeCommand st).past = s.stor :: s.past := by
  simp [State.completeCommand]

@[simp] theorem State.completeCommand_draws (s : State) (st : Status) :
    (s.completeCommand st).draws = (s.arrayEffect st).draws := by
  simp [State.completeCommand]

/-! ## ERASE_REGION and ERASE_STEP -/

@[simp] theorem State.startErase_cfg (s : State) : s.startErase.cfg = s.cfg := by
  unfold State.startErase
  split
  · simp
  · simp

@[simp] theorem State.startErase_bq (s : State) : s.startErase.bq = s.bq := by
  unfold State.startErase
  split
  · simp
  · simp

@[simp] theorem State.startErase_rxHold (s : State) : s.startErase.rxHold = s.rxHold := by
  unfold State.startErase
  split
  · simp
  · simp

@[simp] theorem State.startErase_la (s : State) : s.startErase.la = s.la := by
  unfold State.startErase
  split
  · simp
  · simp

@[simp] theorem State.startErase_rq (s : State) : s.startErase.rq = s.rq := by
  unfold State.startErase
  split
  · simp
  · simp

@[simp] theorem State.startErase_pm (s : State) : s.startErase.pm = s.pm := by
  unfold State.startErase
  split
  · simp
  · simp

@[simp] theorem State.startErase_we (s : State) : s.startErase.we = s.we := by
  unfold State.startErase
  split
  · simp
  · simp

@[simp] theorem State.startErase_cnt (s : State) : s.startErase.cnt = s.cnt := by
  unfold State.startErase
  split
  · simp
  · simp

@[simp] theorem State.startErase_lastErr (s : State) : s.startErase.lastErr = s.lastErr := by
  unfold State.startErase
  split
  · simp
  · simp

@[simp] theorem State.startErase_faultNoRam (s : State) : s.startErase.faultNoRam = s.faultNoRam := by
  unfold State.startErase
  split
  · simp
  · simp

@[simp] theorem State.startErase_stor (s : State) : s.startErase.stor = s.stor := by
  unfold State.startErase
  split
  · simp
  · simp

@[simp] theorem State.startErase_past (s : State) : s.startErase.past = s.past := by
  unfold State.startErase
  split
  · simp
  · simp

@[simp] theorem State.startErase_host (s : State) : s.startErase.host = s.host := by
  unfold State.startErase
  split
  · simp
  · simp

@[simp] theorem State.startErase_ports (s : State) : s.startErase.ports = s.ports := by
  unfold State.startErase
  split
  · simp
  · simp

@[simp] theorem State.startErase_reads (s : State) : s.startErase.reads = s.reads := by
  unfold State.startErase
  split
  · simp
  · simp

@[simp] theorem State.startErase_draws (s : State) : s.startErase.draws = s.draws := by
  unfold State.startErase
  split
  · simp
  · simp

@[simp] theorem State.startErase_sched (s : State) : s.startErase.sched = s.sched := by
  unfold State.startErase
  split
  · simp
  · simp

@[simp] theorem State.eraseNext_cfg (s : State) : s.eraseNext.cfg = s.cfg := by
  unfold State.eraseNext
  split
  · simp
  · simp

@[simp] theorem State.eraseNext_bq (s : State) : s.eraseNext.bq = s.bq := by
  unfold State.eraseNext
  split
  · simp
  · simp

@[simp] theorem State.eraseNext_rxHold (s : State) : s.eraseNext.rxHold = s.rxHold := by
  unfold State.eraseNext
  split
  · simp
  · simp

@[simp] theorem State.eraseNext_la (s : State) : s.eraseNext.la = s.la := by
  unfold State.eraseNext
  split
  · simp
  · simp

@[simp] theorem State.eraseNext_rq (s : State) : s.eraseNext.rq = s.rq := by
  unfold State.eraseNext
  split
  · simp
  · simp

@[simp] theorem State.eraseNext_pm (s : State) : s.eraseNext.pm = s.pm := by
  unfold State.eraseNext
  split
  · simp
  · simp

@[simp] theorem State.eraseNext_we (s : State) : s.eraseNext.we = s.we := by
  unfold State.eraseNext
  split
  · simp
  · simp

@[simp] theorem State.eraseNext_lastErr (s : State) : s.eraseNext.lastErr = s.lastErr := by
  unfold State.eraseNext
  split
  · simp
  · simp

@[simp] theorem State.eraseNext_refused (s : State) : s.eraseNext.refused = s.refused := by
  unfold State.eraseNext
  split
  · simp
  · simp

@[simp] theorem State.eraseNext_stor (s : State) : s.eraseNext.stor = s.stor := by
  unfold State.eraseNext
  split
  · simp
  · simp

@[simp] theorem State.eraseNext_past (s : State) : s.eraseNext.past = s.past := by
  unfold State.eraseNext
  split
  · simp
  · simp

@[simp] theorem State.eraseNext_host (s : State) : s.eraseNext.host = s.host := by
  unfold State.eraseNext
  split
  · simp
  · simp

@[simp] theorem State.eraseNext_reads (s : State) : s.eraseNext.reads = s.reads := by
  unfold State.eraseNext
  split
  · simp
  · simp

@[simp] theorem State.eraseNext_draws (s : State) : s.eraseNext.draws = s.draws := by
  unfold State.eraseNext
  split
  · simp
  · simp

@[simp] theorem State.eraseNext_sched (s : State) : s.eraseNext.sched = s.sched := by
  unfold State.eraseNext
  split
  · simp
  · simp

end Sys2Proof.Machine
end

