-- ==== Sys2Proof/Laws/Memory.lean ====
section
/-! SUPPORT. The laws of the storage array: a read after a write, every operation keeps the canonical form. -/

namespace Sys2Proof.Machine

/-- Every address listed in `m` is above `a`. -/
def Memory.above (a : Nat) (m : Memory) : Prop := ∀ c ∈ m, a < c.1

@[simp] theorem Memory.read_nil (a : Nat) : Memory.read [] a = Memory.unlisted := rfl

@[simp] theorem Memory.read_cons (k : Nat) (v : Byte) (m : Memory) (a : Nat) :
    Memory.read ((k, v) :: m) a = if a = k then v else Memory.read m a := rfl

theorem Memory.read_above {a : Nat} {m : Memory} (h : Memory.above a m) : m.read a = Memory.unlisted := by
  induction m with
  | nil => rfl
  | cons c m ih =>
    have hc := h c (by simp)
    have hm : Memory.above a m := fun d hd => h d (by simp [hd])
    obtain ⟨k, v⟩ := c
    simp only [Memory.read_cons]
    rw [if_neg (by simp at hc; omega), ih hm]

/-- The canonical form as propositions. -/
theorem Memory.wf_iff (m : Memory) : m.wf = true ↔
    m.Pairwise (fun x y => x.1 < y.1) ∧ ∀ c ∈ m, c.1 < 2 ^ 32 ∧ c.2 ≠ Memory.unlisted := by
  simp [Memory.wf]

theorem Memory.wf_nil : Memory.wf [] = true := by simp [Memory.wf]

theorem Memory.read_write_other (m : Memory) {a b : Nat} (v : Byte) (h : b ≠ a) :
    (m.write a v).read b = m.read b := by
  induction m with
  | nil => by_cases hv : v = Memory.unlisted <;> simp [Memory.write, hv, h]
  | cons c m ih =>
    obtain ⟨k, w⟩ := c
    unfold Memory.write
    split
    · split <;> simp [h]
    · split
      · subst_vars
        split <;> simp [h]
      · simp [ih]

theorem Memory.read_write_same (m : Memory) (a : Nat) (v : Byte)
    (hs : m.Pairwise fun x y => x.1 < y.1) : (m.write a v).read a = v := by
  induction m with
  | nil => by_cases hv : v = Memory.unlisted <;> simp [Memory.write, hv]
  | cons c m ih =>
    obtain ⟨k, w⟩ := c
    obtain ⟨hk, hm⟩ := List.pairwise_cons.1 hs
    unfold Memory.write
    split
    next hlt =>
      split
      next hv =>
        rw [hv]
        refine Memory.read_above fun d hd => ?_
        rcases List.mem_cons.1 hd with rfl | hd
        · exact hlt
        · have := hk d hd; omega
      next => simp
    next hlt =>
      split
      next he =>
        subst he
        split
        next hv => rw [hv]; exact Memory.read_above hk
        next => simp
      next he => simp only [Memory.read_cons, if_neg he]; exact ih hm

theorem Memory.mem_write {m : Memory} {a : Nat} {v : Byte} {c : Host.Cell} (h : c ∈ m.write a v) :
    c ∈ m ∨ (c = (a, v) ∧ v ≠ Memory.unlisted) := by
  induction m with
  | nil =>
    by_cases hv : v = Memory.unlisted <;> simp [Memory.write, hv] at h
    exact .inr ⟨h, hv⟩
  | cons d m ih =>
    obtain ⟨k, w⟩ := d
    unfold Memory.write at h
    split at h
    · split at h
      · exact .inl h
      next hv =>
        rcases List.mem_cons.1 h with h | h
        · exact .inr ⟨h, hv⟩
        · exact .inl h
    · split at h
      · split at h
        · exact .inl (List.mem_cons_of_mem _ h)
        next hv =>
          rcases List.mem_cons.1 h with h | h
          · exact .inr ⟨h, hv⟩
          · exact .inl (List.mem_cons_of_mem _ h)
      · rcases List.mem_cons.1 h with rfl | h
        · simp
        · rcases ih h with h | h
          · exact .inl (List.mem_cons_of_mem _ h)
          · exact .inr h

/-- Writing a byte keeps the canonical form. -/
theorem Memory.wf_write {m : Memory} (h : m.wf = true) {a : Nat} (v : Byte) (ha : a < 2 ^ 32) :
    (m.write a v).wf = true := by
  rw [Memory.wf_iff] at h ⊢
  obtain ⟨hs, hall⟩ := h
  constructor
  · clear hall
    induction m with
    | nil => by_cases hv : v = Memory.unlisted <;> simp [Memory.write, hv]
    | cons c m ih =>
      obtain ⟨k, w⟩ := c
      obtain ⟨hk, hm⟩ := List.pairwise_cons.1 hs
      unfold Memory.write
      split
      next hlt =>
        split
        · exact hs
        · refine List.pairwise_cons.2 ⟨fun d hd => ?_, hs⟩
          rcases List.mem_cons.1 hd with rfl | hd
          · exact hlt
          · have := hk d hd; simp at this ⊢; omega
      next hlt =>
        split
        next he =>
          subst he
          split
          · exact hm
          · exact List.pairwise_cons.2 ⟨hk, hm⟩
        next he =>
          refine List.pairwise_cons.2 ⟨fun d hd => ?_, ih hm⟩
          rcases Memory.mem_write hd with hd | ⟨rfl, -⟩
          · exact hk d hd
          · simp; omega
  · intro c hc
    rcases Memory.mem_write hc with hc | ⟨rfl, hv⟩
    · exact hall c hc
    · exact ⟨ha, hv⟩

/-- Writing bytes keeps the canonical form. -/
theorem Memory.wf_writeBytes {m : Memory} (h : m.wf = true) (a : Addr) (bs : List Byte) :
    (m.writeBytes a bs).wf = true := by
  induction bs generalizing m a with
  | nil => exact h
  | cons b bs ih => exact ih (Memory.wf_write h b a.isLt) (a + 1)

/-- Erasing a range keeps the canonical form. -/
theorem Memory.wf_eraseRange {m : Memory} (h : m.wf = true) (a : Addr) (n : Nat) :
    (m.eraseRange a n).wf = true := by
  rw [Memory.wf_iff] at h ⊢
  exact ⟨h.1.filter _, fun c hc => h.2 c (List.mem_filter.1 hc).1⟩

/-- An erased range reads `ERASED_BYTE`, and every other address reads as before. -/
theorem Memory.read_eraseRange (m : Memory) (a : Addr) (n k : Nat) :
    (m.eraseRange a n).read k = if inRange a n k then Config.erasedByte else m.read k := by
  induction m with
  | nil => simp [Memory.eraseRange, Memory.unlisted]
  | cons c m ih =>
    obtain ⟨j, v⟩ := c
    simp only [Memory.eraseRange, List.filter_cons] at ih ⊢
    by_cases hj : inRange a n j = true
    · simp only [hj, Bool.not_true, Bool.false_eq_true, if_false, ih, Memory.read_cons]
      by_cases hk : k = j
      · subst hk; simp [hj]
      · simp [hk]
    · simp only [hj, Bool.not_false, if_true, Memory.read_cons, ih]
      by_cases hk : k = j
      · subst hk; simp [hj]
      · simp [hk]

/-- Writing bytes from `a` leaves every address outside them. -/
theorem Memory.read_writeBytes_other (m : Memory) (a : Addr) (bs : List Byte) (k : Addr)
    (h : bs.length ≤ (k - a).toNat) : (m.writeBytes a bs).read k.toNat = m.read k.toNat := by
  induction bs generalizing m a with
  | nil => rfl
  | cons b bs ih =>
    simp only [Memory.writeBytes, List.length_cons] at h ⊢
    rw [ih, Memory.read_write_other]
    · intro he
      have : k = a := BitVec.eq_of_toNat_eq he
      subst this; simp at h
    · have hk : (k - (a + 1)).toNat = (k - a).toNat - 1 := by
        have : 1 ≤ (k - a).toNat := by omega
        bv_omega
      omega

/-- Writing at most 2^32 bytes from `a` stores byte `i` at `a + i`. -/
theorem Memory.read_writeBytes_same {m : Memory} (hm : m.wf = true) (a : Addr) (bs : List Byte) (i : Nat)
    (hi : i < bs.length) (hl : bs.length ≤ 2 ^ 32) :
    (m.writeBytes a bs).read (a + BitVec.ofNat 32 i).toNat = bs[i] := by
  induction bs generalizing m a i with
  | nil => simp at hi
  | cons b bs ih =>
    simp only [Memory.writeBytes]
    have hw := Memory.wf_write hm b a.isLt
    cases i with
    | zero =>
      simp only [List.length_cons] at hl
      have h0 : a + BitVec.ofNat 32 0 = a := by simp
      rw [h0, Memory.read_writeBytes_other]
      · simpa using Memory.read_write_same m a.toNat b ((Memory.wf_iff m).1 hm).1
      · have : (a - (a + 1)).toNat = 2 ^ 32 - 1 := by bv_omega
        omega
    | succ i =>
      simp only [List.length_cons] at hl hi
      have he : a + BitVec.ofNat 32 (i + 1) = (a + 1) + BitVec.ofNat 32 i := by
        rw [BitVec.add_assoc]; congr 1
        apply BitVec.eq_of_toNat_eq; simp [Nat.add_comm]
      rw [he]
      simpa using ih hw (a + 1) i (by omega) (by omega)

end Sys2Proof.Machine
end

