-- ==== Sys2Proof/Laws/Moves.lean ====
section
/-! SUPPORT. What a step can do, said once: `Move` lists the effects of every agent's step with the condition it runs
under, and `step_moves` says that a step is a relaunch or one of them. A statement about every step is then one case
analysis. -/

namespace Sys2Proof.Machine

/-- One move of an agent, or of the environment, but for an external reset. -/
inductive Move : State → State → Prop
  | stay (s : State) : Move s s
  | push (s : State) (b : Byte) (armed : s.rxArmed) (open_ : ¬ s.rxMasked) (first : s.rxHold = []) :
    Move s (s.pushByte b)
  | hold (s : State) (b : Byte) : Move s (s.holdByte b)
  | release (s : State) (open_ : ¬ s.rxMasked) :
    Move s ({ s with rxHold := s.rxHold.tail }.pushByte (s.rxHold.headD 0))
  | syncRead (s : State) : Move s { s with bq := { s.bq with rdSeen := s.bq.rd } }
  | syncWrite (s : State) : Move s { s with bq := { s.bq with wrSeen := s.bq.wr } }
  | pop (s : State) (path : s.bytePath) : Move s (s.takeByte.laByte s.headByte)
  | line (s : State) (path : s.linePath) : Move s s.takeLine
  | caseA (s : State) (h : s.weCase .caseA) : Move s s.stash
  | caseB (s : State) (h : s.weCase .caseB) : Move s s.mergeHigh
  | caseC (s : State) (h : s.weCase .caseC) : Move s s.programWhole
  | skip (s : State) (h : s.weCase .skip) : Move s s.skipRest
  | finish (s : State) (h : s.cons.state = .we) : Move s { s with cons := { s.cons with state := .idle } }
  | complete (s : State) (st : Status) (busy : s.sc.busy = true) : Move s (s.completeCommand st)
  | refuse (s : State) (r : RefuseReason) : Move s (s.refuse r)
  | startErase (s : State) (h : s.cons.state = .off) : Move s s.startErase
  | eraseNext (s : State) (h : s.cons.state = .erase) : Move s s.eraseNext
  | session (s : State) (ready : s.sessionReady) : Move s s.sessionReset
  | ramReady (s : State) : Move s s.setRamReady
  | run (s : State) : Move s s.enableRun
  | host (s : State) (h : HostAgent) (p : Ports) : Move s { s with host := h, ports := p }
  | jump (s : State) (h : HostAgent) (d : Nat) : Move s { s with host := h, draws := d }
  | hostRamReady (s : State) (h : HostAgent) : Move s { s with host := h }.setRamReady
  | hostSession (s : State) (h : HostAgent) (ready : s.sessionReady) : Move s { s with host := h }.sessionReset
  | hostErase (s : State) (h : HostAgent) : Move s { s with host := h }.startErase
  | read (s : State) (r : List HostRead) (d : Nat) : Move s { s with reads := r, draws := d }

/-- An attempt whose effect is a move is a move. -/
theorem Move.of_attempt {p : Prop} [Decidable p] {s t u : State} (h : attempt p s t = .next u)
    (hm : p → Move s t) : Move s u := by
  rcases attempt_cases h with ⟨hp, rfl⟩ | ⟨-, rfl⟩
  · exact hm hp
  · exact .stay _

theorem State.takeLine_of_kind_other (s : State) (h : s.headRecord.kind = .other) :
    s.takeLine = { s with rq := s.rq.tail }.raise .recordOther := by
  rw [State.takeLine, State.routeRecord_other _ _ h]

/-- WE_END's step is the RQ_POP step of a line that ends the transfer. -/
theorem State.takeLine_of_ends (s : State) (h : s.headEnds = true) :
    s.takeLine = ({ s with rq := s.rq.tail }.count .endRec).endTransfer := by
  simp only [State.headEnds, Bool.and_eq_true] at h
  exact State.routeRecord_end _ _ h.1 (parseLine_valid h.2).1 h.2

/-- A line taken by name is the head line taken. -/
theorem takeThisLine_moves {line : List Byte} {s t : State} (h : takeThisLine line s = .next t) : Move s t :=
  Move.of_attempt h fun hp => by
    have : parseLine s.cfg line = s.headRecord := by rw [State.headRecord, hp.2]
    rw [this]; exact .line s hp.1

/-- Every instruction's next state is a move. -/
theorem exec_moves {i : Instr} {s t : State} (h : exec i s = .next t) : Move s t := by
  cases i <;> simp only [exec] at h
  case recData16 => exact takeThisLine_moves h
  case recData24 => exact takeThisLine_moves h
  case recData32 => exact takeThisLine_moves h
  case recEnd32 => exact takeThisLine_moves h
  case recEnd24 => exact takeThisLine_moves h
  case recEnd16 => exact takeThisLine_moves h
  case recOther line =>
    refine Move.of_attempt h fun hp => ?_
    rw [← s.takeLine_of_kind_other (by rw [State.headRecord, hp.2.1]; exact hp.2.2)]
    exact .line s hp.1
  case bqPush => exact Move.of_attempt h fun hp => .push s _ hp.1 hp.2.1 hp.2.2
  case rxHold => exact Move.of_attempt h fun _ => .hold s _
  case bqPop => exact Move.of_attempt h fun hp => .pop s hp
  case bqSync side =>
    cases side
    · exact Move.of_attempt h fun _ => .syncRead s
    · exact Move.of_attempt h fun _ => .syncWrite s
  case rxRelease => exact Move.of_attempt h fun hp => .release s hp.2.1
  case laAppend =>
    refine Move.of_attempt h fun hp => ?_
    rw [← s.takeByte.laByte_append s.headByte hp.2]; exact .pop s hp.1
  case laOverflow =>
    refine Move.of_attempt h fun hp => ?_
    rw [← s.takeByte.laByte_overflow s.headByte hp.2]; exact .pop s hp.1
  case laEolEmit =>
    refine Move.of_attempt h fun hp => ?_
    rw [← s.takeByte.laByte_eolEmit s.headByte hp.2]; exact .pop s hp.1
  case laEolNoise =>
    refine Move.of_attempt h fun hp => ?_
    rw [← s.takeByte.laByte_eolNoise s.headByte hp.2]; exact .pop s hp.1
  case rqPush =>
    refine Move.of_attempt h fun hp => ?_
    have hm := Move.pop s hp.1
    rw [s.takeByte.laByte_eolEmit s.headByte hp.2] at hm
    exact hm
  case rqPop => exact Move.of_attempt h fun hp => .line s hp
  case parse => exact Move.of_attempt h fun hp => .line s hp
  case weRecord => exact Move.of_attempt h fun hp => .line s hp
  case weCaseA => exact Move.of_attempt h fun hp => .caseA s hp
  case weCaseB => exact Move.of_attempt h fun hp => .caseB s hp
  case weCaseC => exact Move.of_attempt h fun hp => .caseC s hp
  case weSkip => exact Move.of_attempt h fun hp => .skip s hp
  case weEnd =>
    refine Move.of_attempt h fun hp => ?_
    rw [← s.takeLine_of_ends hp.2]; exact .line s hp.1
  case weFinish => exact Move.of_attempt h fun hp => .finish s hp.2.1
  case scProgram8 st =>
    unfold execScProgram8 at h
    split at h
    next hb => exact Move.of_attempt h fun _ => .complete s st hb
    next => cases h; exact .refuse s _
  case scEraseSector st =>
    unfold execScEraseSector at h
    split at h
    next hb => exact Move.of_attempt h fun _ => .complete s st hb
    next => cases h; exact .refuse s _
  case scDone st =>
    unfold execScDone at h
    cases h
    split
    next hb => exact .complete s st hb
    next => exact .refuse s _
  case eraseRegion =>
    refine Move.of_attempt h fun _ => ?_
    by_cases hc : s.cons.state = .off
    · exact .startErase s hc
    · rw [State.startErase, if_neg hc]; exact .refuse s _
  case eraseStep => exact Move.of_attempt h fun hp => .eraseNext s hp.2
  case sessionInit => exact Move.of_attempt h fun hp => .session s hp.2
  case ctlRamReady => exact Move.of_attempt h fun _ => .ramReady s
  case ctlRun => exact Move.of_attempt h fun _ => .run s

/-- Every HOST step is a move. -/
theorem hostStep_moves (s : State) : Move s s.hostStep := by
  unfold State.hostStep
  split
  · exact .host s _ s.ports
  · unfold State.hostDecide; split
    · exact .host s _ s.ports
    · exact .host s _ s.ports
  · unfold State.hostErase; split
    · exact .hostRamReady s _
    · split
      next hr => exact .hostSession s _ hr
      · exact .stay s
    · exact .hostErase s _
    · split
      · exact .host s _ _
      · exact .stay s
  · unfold State.hostLoop; split
    · exact .run s
    · split
      · exact .host s _ _
      · exact .stay s
  · unfold State.hostJump State.checkImage; split
    · exact .jump s _ _
    · exact .jump s _ _
  · exact .stay s
  · exact .stay s

/-- No instruction answers a fault or a refusal. -/
theorem exec_next (i : Instr) (s : State) : ∃ t, exec i s = .next t := by
  have key : ∀ {p : Prop} [Decidable p] {u v : State}, ∃ t, attempt p u v = .next t := fun {p} _ _ _ => by
    by_cases hp : p <;> simp [attempt]
  cases i <;> simp only [exec]
  case scProgram8 => unfold execScProgram8; split <;> first | exact key | exact ⟨_, rfl⟩
  case scEraseSector => unfold execScEraseSector; split <;> first | exact key | exact ⟨_, rfl⟩
  case scDone => exact ⟨_, rfl⟩
  all_goals exact key

/-- What an entry of the schedule does is a relaunch or a move. -/
theorem takeEvent_moves {e : Event} {s t : State} (h : s.takeEvent e = .next t) :
    (∃ level, e = .externalReset level ∧ t = s.relaunch level) ∨ (∀ level, e ≠ .externalReset level) ∧ Move s t := by
  have hf : ∀ {f : Fetched}, s.runFetched f = .next t → Move s t := fun {f} hf => by
    unfold State.runFetched at hf
    split at hf
    · exact exec_moves hf
    · cases hf; exact .refuse s _
  cases e <;> simp only [State.takeEvent] at h
  case trace => exact .inr ⟨by simp, hf h⟩
  case record =>
    split at h
    · cases h; exact .inr ⟨by simp, .stay s⟩
    · exact .inr ⟨by simp, hf h⟩
  case rxByte => exact .inr ⟨by simp, exec_moves h⟩
  case hostStep => cases h; exact .inr ⟨by simp, hostStep_moves s⟩
  case csrRead => cases h; exact .inr ⟨by simp, .read s _ s.draws⟩
  case storRead =>
    cases h
    refine .inr ⟨by simp, ?_⟩
    unfold State.readStor; split
    · exact .refuse s _
    · exact .read s _ _
  case bootSel =>
    cases h
    refine .inr ⟨by simp, ?_⟩
    unfold State.setBootSel; split
    · exact .stay s
    · exact .host s _ s.ports
  case externalReset => cases h; exact .inl ⟨_, rfl, rfl⟩

/-- What a step can do: nothing when nothing is scheduled; otherwise the schedule's head is consumed, and the rest is a
relaunch or a move. -/
theorem step_moves {s t : State} (h : step s = .next t) :
    s.cfg.wf = true ∧ (s.sched = [] ∧ t = s ∨ ∃ e rest, s.sched = e :: rest ∧
      ((∃ level, e = .externalReset level ∧ t = { s with sched := rest }.relaunch level) ∨
       (∀ level, e ≠ .externalReset level) ∧ Move { s with sched := rest } t)) := by
  unfold step at h
  split at h
  next hw =>
    refine ⟨hw, ?_⟩
    split at h
    next hs => cases h; exact .inl ⟨hs, rfl⟩
    next e rest hs => exact .inr ⟨e, rest, hs, takeEvent_moves h⟩
  next => cases h

/-- A property that the schedule does not enter, that a relaunch gives and that every move keeps, is kept by every
step. -/
theorem step_keeps {P : State → Prop} (sched : ∀ s rest, P s → P { s with sched := rest })
    (relaunch : ∀ s, s.cfg.wf = true → ∀ level, P s → P (s.relaunch level))
    (move : ∀ s t, s.cfg.wf = true → P s → Move s t → P t) {s t : State} (hs : P s) (h : step s = .next t) : P t := by
  obtain ⟨hw, ⟨-, rfl⟩ | ⟨e, rest, -, ⟨level, -, rfl⟩ | ⟨-, hm⟩⟩⟩ := step_moves h
  · exact hs
  · exact relaunch { s with sched := rest } hw level (sched s rest hs)
  · exact move { s with sched := rest } t hw (sched s rest hs) hm

end Sys2Proof.Machine
end

