-- ==== Sys2Proof/Laws/PerInstr.lean ====
section
/-! SUPPORT. What holds of every instruction as syntax, one lemma per constructor: the encoder writes the code, or the
marker and kind digit, that spec/opcode_table.json gives the instruction's row. -/

namespace Sys2Proof.Laws.EncodingFollowsTable

/-- The operation code of an OP row (spec/30_encoding.md R106); a REC row has none. -/
def tableCode : Instr → Option (BitVec 5)
  | .bqPush _ => some 0x01
  | .rxHold _ => some 0x02
  | .bqPop => some 0x03
  | .bqSync _ => some 0x04
  | .rxRelease => some 0x05
  | .laAppend => some 0x08
  | .laOverflow => some 0x09
  | .laEolEmit => some 0x0A
  | .laEolNoise => some 0x0B
  | .rqPush => some 0x0C
  | .rqPop => some 0x0D
  | .parse => some 0x0E
  | .weRecord => some 0x10
  | .weCaseA => some 0x11
  | .weCaseB => some 0x12
  | .weCaseC => some 0x13
  | .weSkip => some 0x14
  | .weEnd => some 0x15
  | .weFinish => some 0x16
  | .scProgram8 _ => some 0x18
  | .scEraseSector _ => some 0x19
  | .scDone _ => some 0x1A
  | .eraseRegion => some 0x1B
  | .eraseStep => some 0x1C
  | .sessionInit => some 0x1D
  | .ctlRamReady => some 0x1E
  | .ctlRun => some 0x1F
  | .recData16 _ | .recData24 _ | .recData32 _ | .recEnd32 _ | .recEnd24 _ | .recEnd16 _ | .recOther _ => none

/-- The kind digit of a REC row (spec/30_encoding.md R93); REC_OTHER and the OP rows have none. -/
def tableDigit (c : Config) : Instr → Option Byte
  | .recData16 _ => some c.kinds.data16
  | .recData24 _ => some c.kinds.data24
  | .recData32 _ => some c.kinds.data32
  | .recEnd32 _ => some c.kinds.end32
  | .recEnd24 _ => some c.kinds.end24
  | .recEnd16 _ => some c.kinds.end16
  | _ => none

/-- The encoding has the format and the fixed bits of the instruction's row. -/
def Statement (i : Instr) : Prop :=
  ∀ c : Config,
    match encode c i with
    | .op code _ => tableCode i = some code
    | .line bytes => tableCode i = none ∧ ∀ d, tableDigit c i = some d → ∃ rest, bytes = c.marker :: d :: rest

theorem recData16 (tail : List Byte) : Statement (.recData16 tail) :=
  fun _ => ⟨rfl, fun _ h => ⟨tail, by cases h; rfl⟩⟩

theorem recData24 (tail : List Byte) : Statement (.recData24 tail) :=
  fun _ => ⟨rfl, fun _ h => ⟨tail, by cases h; rfl⟩⟩

theorem recData32 (tail : List Byte) : Statement (.recData32 tail) :=
  fun _ => ⟨rfl, fun _ h => ⟨tail, by cases h; rfl⟩⟩

theorem recEnd32 (tail : List Byte) : Statement (.recEnd32 tail) :=
  fun _ => ⟨rfl, fun _ h => ⟨tail, by cases h; rfl⟩⟩

theorem recEnd24 (tail : List Byte) : Statement (.recEnd24 tail) :=
  fun _ => ⟨rfl, fun _ h => ⟨tail, by cases h; rfl⟩⟩

theorem recEnd16 (tail : List Byte) : Statement (.recEnd16 tail) :=
  fun _ => ⟨rfl, fun _ h => ⟨tail, by cases h; rfl⟩⟩

theorem recOther (line : List Byte) : Statement (.recOther line) :=
  fun _ => ⟨rfl, fun _ h => by cases h⟩

theorem bqPush (b : Byte) : Statement (.bqPush b) := fun _ => rfl

theorem rxHold (b : Byte) : Statement (.rxHold b) := fun _ => rfl

theorem bqPop : Statement .bqPop := fun _ => rfl

theorem bqSync (side : Side) : Statement (.bqSync side) := fun _ => rfl

theorem rxRelease : Statement .rxRelease := fun _ => rfl

theorem laAppend : Statement .laAppend := fun _ => rfl

theorem laOverflow : Statement .laOverflow := fun _ => rfl

theorem laEolEmit : Statement .laEolEmit := fun _ => rfl

theorem laEolNoise : Statement .laEolNoise := fun _ => rfl

theorem rqPush : Statement .rqPush := fun _ => rfl

theorem rqPop : Statement .rqPop := fun _ => rfl

theorem parse : Statement .parse := fun _ => rfl

theorem weRecord : Statement .weRecord := fun _ => rfl

theorem weCaseA : Statement .weCaseA := fun _ => rfl

theorem weCaseB : Statement .weCaseB := fun _ => rfl

theorem weCaseC : Statement .weCaseC := fun _ => rfl

theorem weSkip : Statement .weSkip := fun _ => rfl

theorem weEnd : Statement .weEnd := fun _ => rfl

theorem weFinish : Statement .weFinish := fun _ => rfl

theorem scProgram8 (status : Status) : Statement (.scProgram8 status) := fun _ => rfl

theorem scEraseSector (status : Status) : Statement (.scEraseSector status) := fun _ => rfl

theorem scDone (status : Status) : Statement (.scDone status) := fun _ => rfl

theorem eraseRegion : Statement .eraseRegion := fun _ => rfl

theorem eraseStep : Statement .eraseStep := fun _ => rfl

theorem sessionInit : Statement .sessionInit := fun _ => rfl

theorem ctlRamReady : Statement .ctlRamReady := fun _ => rfl

theorem ctlRun : Statement .ctlRun := fun _ => rfl

end Sys2Proof.Laws.EncodingFollowsTable
end

