-- ==== Sys2Proof/Tests/Slice0.lean ====
section
/-! SUPPORT. Tests: the words of the opcode table decoded, each check of WellFormed refused, one or two small vectors of
spec/95_test_vectors.md per instruction, and, for each statement of Obligations.lean that has hypotheses, a state and
operands that meet them, clause by clause at the edges of their ranges. -/

namespace Sys2Proof.Tests

open Sys2Proof Sys2Proof.Machine

/-! ## Small states -/

/-- A small well-formed configuration: two byte slots, lines of twelve bytes, two sectors from 0x8000. -/
def cfgT : Config := { Config.cfg0 with
  bqCap := 2, lineMax := 12, rqCap := 2, regionLen := 0x2000
  scOpcProgram8 := 1, scOpcErase := 2, imageWordOrder := .littleEndian, csrBase := 0 }

/-- The machine booted and ready to load, as state B0 of spec/95_test_vectors.md section 0. -/
def ready : State :=
  let s := State.powerOn cfgT true [] 0 []
  { s with
    host := { s.host with state := .loop }
    cons := { state := .idle, waitRet := .we, runEnabled := true }
    sc := { s.sc with ramReady := true } }

/-- The state an instruction leaves, or the state itself if it has none. -/
def after (i : Instr) (s : State) : State :=
  match exec i s with
  | .next t => t
  | .fault _ => s
  | .refused _ => s

/-- The state one step with this schedule entry leaves. -/
def stepped (e : Event) (s : State) : State :=
  match step { s with sched := [e] } with
  | .next t => t
  | .fault _ => s
  | .refused _ => s

/-- One byte waiting in the Byte Queue, with a line begun. -/
def byteReady (b : Byte) (la : LineAssembler) (rq : List (List Byte)) : State :=
  { ready with bq := { ready.bq with mem := [b, 0], wr := 1, wrSeen := 1 }, la := la, rq := rq }

/-- A record line at the head of the Record Queue. -/
def lineReady (line : List Byte) : State := { ready with rq := [line] }

/-- The Write Engine at work. -/
def working (addr : Addr) (data : List Byte) : State :=
  { ready with cons := { ready.cons with state := .we }, we := { addr := addr, data := data } }

/-- A PendingMerge at an address. -/
def withMerge (s : State) (base : Addr) : State :=
  { s with pm := { valid := true, base := base, low4 := ⟨0xDE, 0xAD, 0xBE, 0xEF⟩ } }

/-- A storage command outstanding. -/
def waiting (op : StorageOp) (addr : Addr) (ret : WaitRet) : State :=
  { ready with
    cons := { ready.cons with state := .wait, waitRet := ret }
    sc := { ready.sc with
      busy := true, op := op, addr := addr, data := ⟨⟨1, 2, 3, 4⟩, ⟨5, 6, 7, 8⟩⟩ } }

/-- The HOST in a state and phase, about to take its step. -/
def hostIn (h : HostState) (p : Fin 4) : State :=
  { ready with host := { ready.host with state := h, phase := p }, sched := [.hostStep] }

def noRam (s : State) : State := { s with sc := { s.sc with ramReady := false } }

/-! ## Decoding: the words of spec/opcode_table.json -/

/-- The seven REC rows (spec/30_encoding.md R93). -/
theorem test_decode_record_lines :
    decodeTableWord 16 0x5331 = some (.recData16 []) ∧
    decodeTableWord 16 0x5332 = some (.recData24 []) ∧
    decodeTableWord 16 0x5333 = some (.recData32 []) ∧
    decodeTableWord 16 0x5337 = some (.recEnd32 []) ∧
    decodeTableWord 16 0x5338 = some (.recEnd24 []) ∧
    decodeTableWord 16 0x5339 = some (.recEnd16 []) ∧
    decodeTableWord 16 0x5335 = some (.recOther [0x53, 0x35]) ∧
    decodeTableWord 16 0x0000 = some (.recOther [0, 0]) := by decide

/-- The OP rows of codes 0x01 to 0x0E (spec/30_encoding.md R106). -/
theorem test_decode_operations_low :
    decodeTableWord 8 0b00001 = some (.bqPush 0) ∧
    decodeTableWord 8 0b00010 = some (.rxHold 0) ∧
    decodeTableWord 8 0b00011 = some (.bqPop) ∧
    decodeTableWord 8 0b00100 = some (.bqSync .readCopy) ∧
    decodeTableWord 8 0b00101 = some (.rxRelease) ∧
    decodeTableWord 8 0b01000 = some (.laAppend) ∧
    decodeTableWord 8 0b01001 = some (.laOverflow) ∧
    decodeTableWord 8 0b01010 = some (.laEolEmit) ∧
    decodeTableWord 8 0b01011 = some (.laEolNoise) ∧
    decodeTableWord 8 0b01100 = some (.rqPush) ∧
    decodeTableWord 8 0b01101 = some (.rqPop) ∧
    decodeTableWord 8 0b01110 = some (.parse) := by decide

/-- The OP rows of codes 0x10 to 0x1F. -/
theorem test_decode_operations_high :
    decodeTableWord 8 0b10000 = some (.weRecord) ∧
    decodeTableWord 8 0b10001 = some (.weCaseA) ∧
    decodeTableWord 8 0b10010 = some (.weCaseB) ∧
    decodeTableWord 8 0b10011 = some (.weCaseC) ∧
    decodeTableWord 8 0b10100 = some (.weSkip) ∧
    decodeTableWord 8 0b10101 = some (.weEnd) ∧
    decodeTableWord 8 0b10110 = some (.weFinish) ∧
    decodeTableWord 8 0b11000 = some (.scProgram8 .ok) ∧
    decodeTableWord 8 0b11001 = some (.scEraseSector .ok) ∧
    decodeTableWord 8 0b11010 = some (.scDone .ok) ∧
    decodeTableWord 8 0b11011 = some (.eraseRegion) ∧
    decodeTableWord 8 0b11100 = some (.eraseStep) ∧
    decodeTableWord 8 0b11101 = some (.sessionInit) ∧
    decodeTableWord 8 0b11110 = some (.ctlRamReady) ∧
    decodeTableWord 8 0b11111 = some (.ctlRun) := by decide

/-- The five codes that name no operation (R106). -/
theorem test_decode_unused_codes :
    decodeTableWord 8 0x00 = none ∧
    decodeTableWord 8 0x06 = none ∧
    decodeTableWord 8 0x07 = none ∧
    decodeTableWord 8 0x0F = none ∧
    decodeTableWord 8 0x17 = none := by decide

/-- Operand bytes: the side and status fields, and bits no operation has (log 5). -/
theorem test_decode_operand_bytes :
    decode cfgT (.op 0x01 0xFF) = .ok (.bqPush 0xFF) ∧
    decode cfgT (.op 0x04 1) = .ok (.bqSync .writeCopy) ∧
    decode cfgT (.op 0x1A 1) = .ok (.scDone .fail) ∧
    decode cfgT (.op 0x1A 2) = .error (.badOperand 0x1A 2) ∧
    decode cfgT (.op 0x03 1) = .error (.badOperand 0x03 1) := by decide

/-- V-RP-1, the line S1041234AB0A. -/
theorem test_decode_full_line :
    decode Config.cfg0 (.line [0x53, 0x31, 0x30, 0x34, 0x31, 0x32, 0x33, 0x34, 0x41, 0x42, 0x30, 0x41]) = .ok (.recData16 [0x30, 0x34, 0x31, 0x32, 0x33, 0x34, 0x41, 0x42, 0x30, 0x41]) := by decide

/-- V-RP-23 and a lower case marker. -/
theorem test_decode_short_lines :
    decode cfgT (.line []) = .ok (.recOther []) ∧
    decode cfgT (.line [0x53]) = .ok (.recOther [0x53]) ∧
    decode cfgT (.line [0x73, 0x31]) = .ok (.recOther [0x73, 0x31]) := by decide

/-! ## WellFormed: an ill-formed term for each check (spec/00_scope.md R10) -/

theorem test_wf_accepts :
    cfgT.wf = true ∧ Config.cfg0.wf = true := by decide

theorem test_wf_refuses :
    { cfgT with regionStart := 0x8001 }.wf = false ∧
    { cfgT with regionLen := 0x2001 }.wf = false ∧
    { cfgT with regionLen := 0 }.wf = false ∧
    { cfgT with regionStart := 0xFFFFF000 }.wf = false ∧
    { cfgT with writeGran := 4 }.wf = false ∧
    { cfgT with half := 2 }.wf = false ∧
    { cfgT with bqCap := 0 }.wf = false ∧
    { cfgT with rqCap := 0 }.wf = false ∧
    { cfgT with lineMax := 0 }.wf = false ∧
    { cfgT with newline := 0x53 }.wf = false ∧
    { cfgT with kinds := { Config.defaultKinds with end16 := 0x31 } }.wf = false := by decide

theorem test_step_refuses_ill_formed :
    step { ready with cfg := { cfgT with bqCap := 0 } } = .refused .illFormedConfiguration := rfl

theorem test_wf_lines :
    (Instr.recData16 [0x0A]).wf cfgT = false ∧
    (Instr.recData16 (List.replicate 10 0x30)).wf cfgT = true ∧
    (Instr.recData16 (List.replicate 11 0x30)).wf cfgT = false ∧
    (Instr.recOther [0x53, 0x31]).wf cfgT = false ∧
    (Instr.recOther [0x53, 0x34]).wf cfgT = true ∧
    (Instr.recOther [0x31, 0x0A]).wf cfgT = false ∧
    (Instr.bqPush 0x0A).wf cfgT = true := by decide

/-! ## The meanings, on the vectors of spec/95_test_vectors.md -/

/-- As V-BQ-1. -/
theorem test_bqPush_stores :
    (after (.bqPush 0x53) ready).bq = { mem := [0x53, 0], wr := 1, rd := 0, rdSeen := 0, wrSeen := 0 } := by decide

/-- As V-BQ-3, and V-BQ-4: the index wraps at twice the capacity. -/
theorem test_bqPush_full_drops_and_wraps :
    let s := { ready with bq := { ready.bq with wr := 2 } }
    (after (.bqPush 0x53) s).bq = s.bq ∧ (after (.bqPush 0x53) s).cnt.bqDrop = 1 ∧ (after (.bqPush 0x53) s).lastErr = 1 ∧
    (after (.bqPush 0x53) { ready with bq := { ready.bq with wr := 3, rd := 2 } }).bq.wr = 0 := by decide

/-- As V-BQ-8. -/
theorem test_rxHold_then_loses :
    let s := waiting .program8 0x8000 .we
    (after (.rxHold 0x31) s).rxHold = [0x31] ∧ (after (.rxHold 0x32) (after (.rxHold 0x31) s)).cnt.rxLost = 1 ∧
    (after (.rxHold 0x32) (after (.rxHold 0x31) s)).lastErr = 13 := by decide

/-- As V-BQ-9. -/
theorem test_rxRelease_pushes :
    let s := { ready with rxHold := [0x31] }
    (after .rxRelease s).bq.mem = [0x31, 0] ∧ (after .rxRelease s).rxHold = [] ∧ (after (.bqPush 0x34) s) = s := by decide

/-- As V-BQ-6 and V-BQ-7. -/
theorem test_bqSync_refreshes :
    let s := { ready with cfg := { cfgT with bqStaleView := true }, bq := { ready.bq with wr := 2, rd := 1 } }
    (after (.bqSync .readCopy) s).bq.rdSeen = 1 ∧ (after (.bqSync .writeCopy) s).bq.wrSeen = 2 := by decide

/-- As V-BQ-5 and V-LA-3. -/
theorem test_bqPop_last_byte :
    let s := byteReady 0x0A ⟨[0x68, 0x65, 0x6C, 0x6C, 0x6F], false⟩ []
    (after .bqPop s).bq.rd = 1 ∧ (after .bqPop s).bqCount = 0 ∧ (after .bqPop s).cnt.lineNoise = 1 ∧
    (after .bqPop s).lastErr = 0 := by decide

/-- V-LA-1. -/
theorem test_laAppend_appends :
    (after .laAppend (byteReady 0x30 ⟨[0x53, 0x31], false⟩ [])).la.buf = [0x53, 0x31, 0x30] := by decide

/-- As V-LA-7. -/
theorem test_laOverflow_resets :
    let s := byteReady 0x41 ⟨List.replicate 12 0x41, false⟩ []
    (after .laOverflow s).la = ⟨[], false⟩ ∧ (after .laOverflow s).cnt.lineOverflow = 1 ∧ (after .laOverflow s).lastErr = 2 := by decide

/-- V-LA-2. -/
theorem test_laEolEmit_emits :
    let s := byteReady 0x0A ⟨[0x53, 0x39, 0x30, 0x33, 0x30, 0x30, 0x30, 0x30, 0x46, 0x43], false⟩ []
    (after .laEolEmit s).rq = [[0x53, 0x39, 0x30, 0x33, 0x30, 0x30, 0x30, 0x30, 0x46, 0x43]] ∧ (after .laEolEmit s).la.buf = [] ∧ (after .laEolEmit s).cnt.lines = 1 := by decide

/-- V-LA-4. -/
theorem test_laEolNoise_empty_line :
    (after .laEolNoise (byteReady 0x0A ⟨[], false⟩ [])).cnt.lineNoise = 1 := by decide

/-- As V-LA-9. -/
theorem test_rqPush_full_drops :
    let s := byteReady 0x0A ⟨[0x53], false⟩ [[0x53], [0x53]]
    (after .rqPush s).rq = s.rq ∧ (after .rqPush s).cnt.rqDrop = 1 ∧ (after .rqPush s).lastErr = 4 := by decide

/-- As V-LA-10, with the End reset of spec/43_write_engine.md R209 that its end record brings. -/
theorem test_rqPop_takes_the_first :
    let s := { ready with rq := [[0x53, 0x39, 0x30, 0x33, 0x30, 0x30, 0x30, 0x30, 0x46, 0x43], [0x53, 0x31, 0x30, 0x34, 0x31, 0x32, 0x33, 0x34, 0x41, 0x42, 0x30, 0x41]] }
    (after .rqPop s).rq = [] ∧ (after .rqPop s).cnt.endRec = 1 ∧ (after .rqPop s).ports.transferDone = 1 := by decide

/-- V-RP-1. -/
theorem test_parse_data16 :
    parseLine cfgT [0x53, 0x31, 0x30, 0x34, 0x31, 0x32, 0x33, 0x34, 0x41, 0x42, 0x30, 0x41] = ⟨.data16, 0x1234, [0xAB], 0x0A, true, .none⟩ ∧
    (after .parse (lineReady [0x53, 0x31, 0x30, 0x34, 0x31, 0x32, 0x33, 0x34, 0x41, 0x42, 0x30, 0x41])).we.data = [0xAB] := by decide

/-- V-RP-7. -/
theorem test_parse_data24 :
    parseLine cfgT [0x53, 0x32, 0x30, 0x38, 0x30, 0x30, 0x38, 0x30, 0x31, 0x30, 0x30, 0x31, 0x30, 0x32, 0x30, 0x33, 0x30, 0x34, 0x35, 0x44] = ⟨.data24, 0x8010, [1, 2, 3, 4], 0x5D, true, .none⟩ := by decide

/-- V-RP-5. -/
theorem test_weRecord_checksum_fail :
    let s := lineReady [0x53, 0x31, 0x30, 0x34, 0x31, 0x32, 0x33, 0x34, 0x41, 0x42, 0x30, 0x42]
    (after .weRecord s).cnt.cksumFail = 1 ∧ (after .weRecord s).lastErr = 7 ∧ (after .weRecord s).cons.state = .idle := by decide

/-- V-RP-1. -/
theorem test_recData16_loads :
    (after (.recData16 [0x30, 0x34, 0x31, 0x32, 0x33, 0x34, 0x41, 0x42, 0x30, 0x41])
      (lineReady [0x53, 0x31, 0x30, 0x34, 0x31, 0x32, 0x33, 0x34, 0x41, 0x42, 0x30, 0x41])).we =
    { addr := 0x1234, data := [0xAB] } := by decide

/-- V-RP-7. -/
theorem test_recData24_loads :
    (after (.recData24 [0x30, 0x38, 0x30, 0x30, 0x38, 0x30, 0x31, 0x30, 0x30, 0x31, 0x30, 0x32, 0x30, 0x33, 0x30, 0x34, 0x35, 0x44])
      (lineReady [0x53, 0x32, 0x30, 0x38, 0x30, 0x30, 0x38, 0x30, 0x31, 0x30, 0x30, 0x31, 0x30, 0x32, 0x30, 0x33, 0x30, 0x34, 0x35, 0x44])).we =
    { addr := 0x8010, data := [1, 2, 3, 4] } := by decide

/-- V-RP-8. -/
theorem test_recData32_loads :
    (after (.recData32 [0x30, 0x44, 0x30, 0x30, 0x30, 0x30, 0x38, 0x30, 0x30, 0x30, 0x31, 0x31, 0x32, 0x32, 0x33, 0x33, 0x34, 0x34, 0x35, 0x35, 0x36, 0x36, 0x37, 0x37, 0x38, 0x38, 0x30, 0x45])
      (lineReady [0x53, 0x33, 0x30, 0x44, 0x30, 0x30, 0x30, 0x30, 0x38, 0x30, 0x30, 0x30, 0x31, 0x31, 0x32, 0x32, 0x33, 0x33, 0x34, 0x34, 0x35, 0x35, 0x36, 0x36, 0x37, 0x37, 0x38, 0x38, 0x30, 0x45])).we =
    { addr := 0x8000, data := [0x11, 0x22, 0x33, 0x44, 0x55, 0x66, 0x77, 0x88] } := by decide

/-- V-RP-9. -/
theorem test_recEnd32_ends :
    (after (.recEnd32 [0x30, 0x35, 0x30, 0x30, 0x30, 0x30, 0x38, 0x30, 0x30, 0x30, 0x37, 0x41])
      (lineReady [0x53, 0x37, 0x30, 0x35, 0x30, 0x30, 0x30, 0x30, 0x38, 0x30, 0x30, 0x30, 0x37, 0x41])).ports.transferDone = 1 := by decide

/-- V-RP-10. -/
theorem test_recEnd24_ends :
    (after (.recEnd24 [0x30, 0x34, 0x30, 0x30, 0x30, 0x30, 0x30, 0x30, 0x46, 0x42])
      (lineReady [0x53, 0x38, 0x30, 0x34, 0x30, 0x30, 0x30, 0x30, 0x30, 0x30, 0x46, 0x42])).ports.transferDone = 1 := by decide

/-- V-RP-11. -/
theorem test_recEnd16_ends :
    (after (.recEnd16 [0x30, 0x33, 0x30, 0x30, 0x30, 0x30, 0x46, 0x43])
      (lineReady [0x53, 0x39, 0x30, 0x33, 0x30, 0x30, 0x30, 0x30, 0x46, 0x43])).ports.transferDone = 1 := by decide

/-- V-RP-24. -/
theorem test_recOther_notes :
    let s := lineReady [0x53, 0x35, 0x30, 0x33, 0x30, 0x30, 0x30, 0x31, 0x46, 0x42]
    (after (.recOther [0x53, 0x35, 0x30, 0x33, 0x30, 0x30, 0x30, 0x31, 0x46, 0x42]) s).cnt.recOther = 1 ∧ (after (.recOther [0x53, 0x35, 0x30, 0x33, 0x30, 0x30, 0x30, 0x31, 0x46, 0x42]) s).lastErr = 0 := by decide

/-- As V-WE-1: Case A. -/
theorem test_weCaseA_stashes :
    let s := working 0x8000 [0xDE, 0xAD, 0xBE, 0xEF]
    (after .weCaseA s).pm = ⟨true, 0x8000, ⟨0xDE, 0xAD, 0xBE, 0xEF⟩⟩ ∧ (after .weCaseA s).we = ⟨0x8004, []⟩ := by decide

/-- W6: Case A, then Case B, make one phrase. -/
theorem test_weCaseB_merges :
    let s := withMerge (working 0x8004 [1, 2, 3, 4]) 0x8000
    (after .weCaseB s).sc.data = ⟨⟨0xDE, 0xAD, 0xBE, 0xEF⟩, ⟨1, 2, 3, 4⟩⟩ ∧ (after .weCaseB s).sc.addr = 0x8000 ∧
    (after .weCaseB s).pm.valid = false := by decide

/-- A PendingMerge of another base is lost (spec/43_write_engine.md R205). -/
theorem test_weCaseB_pads :
    let s := withMerge (working 0x8004 [1, 2, 3, 4]) 0x8008
    (after .weCaseB s).sc.data = ⟨⟨0xFF, 0xFF, 0xFF, 0xFF⟩, ⟨1, 2, 3, 4⟩⟩ ∧ (after .weCaseB s).cnt.mergeLost = 1 ∧
    (after .weCaseB s).lastErr = 11 := by decide

/-- W5: Case C. -/
theorem test_weCaseC_programs :
    let s := working 0x8000 [1, 2, 3, 4, 5, 6, 7, 8]
    (after .weCaseC s).ports.emitted = [.scCmd .program8 0x8000 ⟨⟨1, 2, 3, 4⟩, ⟨5, 6, 7, 8⟩⟩] ∧
    (after .weCaseC s).we = ⟨0x8008, []⟩ ∧ (after .weCaseC s).cons.state = .wait := by decide

/-- The phrase just below the window, and no RAM routine (spec/43_write_engine.md R208, spec/44_storage.md R230). -/
theorem test_weCaseC_outside_or_no_ram :
    let s := working 0x7FF8 [1, 2, 3, 4, 5, 6, 7, 8]
    (after .weCaseC s).cnt.outOfRegion = 1 ∧ (after .weCaseC s).ports.emitted = [] ∧ (after .weCaseC s).lastErr = 9 ∧
    (after .weCaseC (noRam (working 0x8000 [1, 2, 3, 4, 5, 6, 7, 8]))).faultNoRam = true := by decide

/-- spec/43_write_engine.md R207. -/
theorem test_weSkip_counts :
    let s := working 0x8001 [1, 2, 3]
    (after .weSkip s).cnt.bytesUnhandled = 3 ∧ (after .weSkip s).lastErr = 10 ∧ (after .weSkip s).cons.state = .idle := by decide

/-- W7: the final phrase, its high half erased. -/
theorem test_weEnd_flushes :
    let s := withMerge (lineReady [0x53, 0x39, 0x30, 0x33, 0x30, 0x30, 0x30, 0x30, 0x46, 0x43]) 0x8000
    (after .weEnd s).sc.data = ⟨⟨0xDE, 0xAD, 0xBE, 0xEF⟩, ⟨0xFF, 0xFF, 0xFF, 0xFF⟩⟩ ∧
    (after .weEnd s).cons.waitRet = .endFlush ∧ (after .weEnd s).ports.transferDone = 0 := by decide

theorem test_weFinish_idles :
    (after .weFinish (working 0x8000 [])).cons.state = .idle := by decide

/-- spec/44_storage.md R231: byte i of the data at addr + i. -/
theorem test_scProgram8_stores :
    let s := waiting .program8 0x8000 .we
    (after (.scProgram8 .ok) s).stor = [(0x8000, 1), (0x8001, 2), (0x8002, 3), (0x8003, 4), (0x8004, 5), (0x8005, 6), (0x8006, 7), (0x8007, 8)] ∧
    (after (.scProgram8 .ok) s).cons.state = .we := by decide

/-- spec/44_storage.md R232: to the last byte of the sector and no further. -/
theorem test_scEraseSector_erases :
    let s := { waiting .eraseSector 0x8000 .erase with stor := [(0x8FFF, 1), (0x9000, 2)] }
    (after (.scEraseSector .ok) s).stor = [(0x9000, 2)] ∧ (after (.scEraseSector .ok) s).sc.eraseIdx = 1 := by decide

/-- spec/44_storage.md R233, R234. -/
theorem test_scDone_fail_reports :
    let s := waiting .program8 0x8000 .endFlush
    (after (.scDone .fail) s).sc.fail = true ∧ (after (.scDone .fail) s).cnt.storageFail = 1 ∧
    (after (.scDone .fail) s).lastErr = 12 ∧ (after (.scDone .fail) s).ports.transferDone = 1 ∧ (after (.scDone .fail) s).draws = 8 := by decide

theorem test_scDone_unsolicited :
    (after (.scDone .ok) ready).refused = some .unsolicitedDone := by decide

theorem test_eraseRegion_starts :
    let s := { ready with cons := { ready.cons with state := .off } }
    (after .eraseRegion s).cons.state = .erase ∧ (after .eraseRegion ready).refused = some .eraseRegionNotOff := by decide

theorem test_eraseStep_second_sector :
    let s := { ready with cons := { ready.cons with state := .erase }, sc := { ready.sc with eraseIdx := 1 } }
    (after .eraseStep s).sc.addr = 0x9000 ∧ (after .eraseStep s).cnt.erase = 1 ∧ (after .eraseStep s).cons.state = .wait := by decide

theorem test_eraseStep_ends :
    let s := { ready with cons := { ready.cons with state := .erase }, sc := { ready.sc with eraseIdx := 2, eraseFail := true } }
    (after .eraseStep s).ports.eraseDone = some .fail ∧ (after .eraseStep s).cons.state = .idle := by decide

theorem test_sessionInit_clears :
    let s := withMerge (byteReady 0x41 ⟨[0x53], true⟩ [[0x53]]) 0x8000
    (after .sessionInit s).bqCount = 0 ∧ (after .sessionInit s).bq.wr = 1 ∧ (after .sessionInit s).rq = [] ∧
    (after .sessionInit s).pm.valid = false ∧ (after .sessionInit s).cons.state = .off ∧ (after .sessionInit s).sc.ramReady = true := by decide

theorem test_ctlRamReady_sets :
    (after .ctlRamReady (noRam ready)).sc.ramReady = true := by decide

theorem test_ctlRun_enables :
    let s := { ready with cons := { state := .off, waitRet := .we, runEnabled := false } }
    (after .ctlRun s).cons = { state := .idle, waitRet := .we, runEnabled := true } := by decide

/-- STATUS of state B0 (spec/95_test_vectors.md section 0). -/
theorem test_status_ready :
    ready.csr 0 = 0x1A8 := by decide

/-- The command fields of spec/30_encoding.md R107: `data[0]` in bits 7:0, `data[7]` in bits 63:56. -/
theorem test_command_registers :
    (waiting .program8 0x8000 .we).commandRegisters =
      { op := 0, opcode := 1, addr := 0x8000, data := 0x0807060504030201 } := by decide

theorem test_placed_word_runs :
    step (ready.withFetchWord 8 0x03) = exec .bqPop { ready with sched := [] } ∧
    step (ready.withFetchWord 16 0x5339) = exec (.recEnd16 []) { ready with rq := [[0x53, 0x39]] } := ⟨rfl, rfl⟩

/-! ## Hypotheses met: one theorem for each statement that has hypotheses, every clause of it -/

theorem test_hyps_DecodeOfEncodeIsTheInstruction :
    cfgT.wf = true ∧
    (Instr.recData16 (List.replicate 10 0x30)).wf cfgT = true ∧
    (Instr.recOther []).wf cfgT = true ∧
    (Instr.bqPush 0xFF).wf cfgT = true := by decide

theorem test_hyps_EncodeOfDecodeIsTheWord :
    decode cfgT (.op 0x1F 0) = .ok .ctlRun ∧
    decode cfgT (.line [0x53, 0x39]) = .ok (.recEnd16 []) := by decide

theorem test_hyps_OperationCodesAreThoseOfTheTable :
    ready.cfg.wf = true ∧
    { ready with sched := [.trace 0x00 0] }.sched = .trace 0x00 0 :: [] ∧
    (0x00 : BitVec 5) ∈ [(0x00 : BitVec 5), 0x06, 0x07, 0x0F, 0x17] ∧
    { ready with sched := [.trace 0x17 9] }.sched = .trace 0x17 9 :: [] ∧
    (0x17 : BitVec 5) ∈ [(0x00 : BitVec 5), 0x06, 0x07, 0x0F, 0x17] := by decide

theorem test_hyps_StepRunsTheDecodedInstruction :
    ready.cfg.wf = true ∧
    decode ready.cfg (.op 0x03 0) = .ok .bqPop ∧
    decode ready.cfg (.line [0x53, 0x39]) = .ok (.recEnd16 []) ∧
    { lineReady [0x53, 0x39] with sched := [.record] }.rq = [0x53, 0x39] :: [] := by decide

theorem test_hyps_BqPushStoresOrDropsTheByte :
    ({ ready with bq := { ready.bq with wr := 2 } }).host.state ≠ .init ∧
    ({ ready with bq := { ready.bq with wr := 2 } }).host.state ≠ .app ∧
    ({ ready with bq := { ready.bq with wr := 2 } }).sc.busy = false ∧
    ({ ready with bq := { ready.bq with wr := 2 } }).rxHold = [] ∧
    ({ ready with bq := { ready.bq with wr := 2 } }).seenByRx = cfgT.bqCap ∧
    ({ ready with bq := { ready.bq with wr := 1 } }).host.state ≠ .init ∧
    ({ ready with bq := { ready.bq with wr := 1 } }).host.state ≠ .app ∧
    ({ ready with bq := { ready.bq with wr := 1 } }).sc.busy = false ∧
    ({ ready with bq := { ready.bq with wr := 1 } }).rxHold = [] ∧
    ({ ready with bq := { ready.bq with wr := 1 } }).seenByRx ≠ cfgT.bqCap := by decide

theorem test_hyps_ByteQueueIsFirstInFirstOut :
    ready.QueueInv ∧
    (ready).host.state ≠ .init ∧
    (ready).host.state ≠ .app ∧
    (ready).sc.busy = false ∧
    (ready).rxHold = [] ∧
    ready.seenByRx ≠ cfgT.bqCap ∧
    (byteReady 0x41 ⟨[], false⟩ []).QueueInv ∧
    (byteReady 0x41 ⟨[], false⟩ []).bytePath := by
  unfold State.QueueInv
  decide

theorem test_hyps_RxHoldKeepsOrLosesTheByte :
    (waiting .program8 0x8000 .we).host.state ≠ .init ∧
    (waiting .program8 0x8000 .we).host.state ≠ .app ∧
    (waiting .program8 0x8000 .we).sc.busy = true ∧
    (waiting .program8 0x8000 .we).rxHold.length < cfgT.rxHoldDepth ∧
    ({ ready with rxHold := [0x31] }).host.state ≠ .init ∧
    ({ ready with rxHold := [0x31] }).host.state ≠ .app ∧
    ({ ready with rxHold := [0x31] }).rxHold ≠ [] ∧
    cfgT.rxHoldDepth ≤ ({ ready with rxHold := [0x31] }).rxHold.length := by decide

theorem test_hyps_RxReleasePushesTheOldestHeldByte :
    ({ ready with rxHold := [0x31], bq := { ready.bq with wr := 2 } }).host.state ≠ .app ∧
    ({ ready with rxHold := [0x31], bq := { ready.bq with wr := 2 } }).sc.busy = false ∧
    ({ ready with rxHold := [0x31], bq := { ready.bq with wr := 2 } }).rxHold = 0x31 :: [] ∧
    ({ ready with rxHold := [0x31], bq := { ready.bq with wr := 2 } }).seenByRx = cfgT.bqCap ∧
    ({ ready with rxHold := [0x31] }).rxHold = 0x31 :: [] ∧
    ({ ready with rxHold := [0x31] }).sc.busy = false ∧
    ({ ready with rxHold := [0x31] }).seenByRx ≠ cfgT.bqCap := by decide

/-- A queue with stale views, one popped byte not seen by RX. -/
def stale : State := { ready with cfg := { cfgT with bqStaleView := true }, bq := { ready.bq with wr := 1, rd := 1, wrSeen := 1 } }

theorem test_hyps_BqSyncRefreshesOneCopy :
    stale.host.state ≠ .app ∧
    stale.cfg.bqStaleView = true ∧
    stale.bq.rdSeen ≠ stale.bq.rd ∨ stale.bq.wrSeen ≠ stale.bq.wr := by decide

theorem test_hyps_ByteQueueInvariantKept :
    stale.QueueInv ∧ ∃ t, step { stale with sched := [.rxByte 0x41] } = .next t ∧ t ≠ stale :=
  ⟨by unfold State.QueueInv; decide, _, rfl, by decide⟩

theorem test_hyps_ByteQueueChangesOnlyAtItsEnds :
    ready.QueueInv ∧ ∃ t, step { ready with sched := [.rxByte 0x41] } = .next t ∧ t.queueBytes = [0x41] :=
  ⟨by unfold State.QueueInv; decide, _, rfl, by decide⟩

theorem test_hyps_BqPopRunsOneLineOperation :
    (let s := byteReady 0x30 ⟨List.replicate 11 0x53, false⟩ [];
      s.bytePath ∧ s.headByte ≠ cfgT.newline ∧ s.la.skip = false ∧ s.la.buf.length ≠ cfgT.lineMax) ∧
    (let s := byteReady 0x30 ⟨[], true⟩ [];
      s.bytePath ∧ s.headByte ≠ cfgT.newline ∧ s.la.skip = true) ∧
    (let s := byteReady 0x30 ⟨List.replicate 12 0x53, false⟩ [];
      s.bytePath ∧ s.headByte ≠ cfgT.newline ∧ s.la.skip = false ∧ s.la.buf.length = cfgT.lineMax) ∧
    (let s := byteReady 0x0A ⟨[0x53], false⟩ [[0x53]];
      s.bytePath ∧ s.headByte = cfgT.newline ∧ s.la.skip = false ∧ s.la.buf.head? = some cfgT.marker ∧ s.rq.length ≠ cfgT.rqCap) ∧
    (let s := byteReady 0x0A ⟨[0x53], false⟩ [[0x53], [0x53]];
      s.bytePath ∧ s.headByte = cfgT.newline ∧ s.la.skip = false ∧ s.la.buf.head? = some cfgT.marker ∧ s.rq.length = cfgT.rqCap) ∧
    (let s := byteReady 0x0A ⟨[], false⟩ [];
      s.bytePath ∧ s.headByte = cfgT.newline ∧ s.la.skip = false ∧ s.la.buf.head? ≠ some cfgT.marker) ∧
    (let s := byteReady 0x0A ⟨[], true⟩ [];
      s.bytePath ∧ s.headByte = cfgT.newline ∧ s.la.skip = true) := ⟨by decide, by decide, by decide, by decide, by decide, by decide, by decide⟩

theorem test_hyps_LineOperationRowsAreTheirBqPopStep :
    (let s := byteReady 0x30 ⟨List.replicate 11 0x53, false⟩ [];
      s.bytePath ∧ s.headByte ≠ cfgT.newline ∧ s.la.skip = false ∧ s.la.buf.length ≠ cfgT.lineMax) ∧
    (let s := byteReady 0x30 ⟨[], true⟩ [];
      s.bytePath ∧ s.headByte ≠ cfgT.newline ∧ s.la.skip = true) ∧
    (let s := byteReady 0x30 ⟨List.replicate 12 0x53, false⟩ [];
      s.bytePath ∧ s.headByte ≠ cfgT.newline ∧ s.la.skip = false ∧ s.la.buf.length = cfgT.lineMax) ∧
    (let s := byteReady 0x0A ⟨[0x53], false⟩ [[0x53]];
      s.bytePath ∧ s.headByte = cfgT.newline ∧ s.la.skip = false ∧ s.la.buf.head? = some cfgT.marker ∧ s.rq.length ≠ cfgT.rqCap) ∧
    (let s := byteReady 0x0A ⟨[0x53], false⟩ [[0x53], [0x53]];
      s.bytePath ∧ s.headByte = cfgT.newline ∧ s.la.skip = false ∧ s.la.buf.head? = some cfgT.marker ∧ s.rq.length = cfgT.rqCap) ∧
    (let s := byteReady 0x0A ⟨[], false⟩ [];
      s.bytePath ∧ s.headByte = cfgT.newline ∧ s.la.skip = false ∧ s.la.buf.head? ≠ some cfgT.marker) ∧
    (let s := byteReady 0x0A ⟨[], true⟩ [];
      s.bytePath ∧ s.headByte = cfgT.newline ∧ s.la.skip = true) := ⟨by decide, by decide, by decide, by decide, by decide, by decide, by decide⟩

theorem test_hyps_LinesInvariantKept :
    (byteReady 0x0A ⟨[0x53], false⟩ [[0x53]]).LinesInv ∧
    ∃ t, step { byteReady 0x0A ⟨[0x53], false⟩ [[0x53]] with sched := [.trace 0x03 0] } = .next t ∧ t.rq.length = 2 :=
  ⟨by unfold State.LinesInv EmittedLine; decide, _, rfl, by decide⟩

theorem test_hyps_RecordQueueChangesOnlyAtItsEnds :
    ∃ t, step { lineReady [0x53] with sched := [.trace 0x0D 0] } = .next t ∧ t.rq = [] :=
  ⟨_, rfl, by decide⟩

theorem test_hyps_ParseReadsBackEveryRecordText :
    cfgT.kindOf 0x31 ≠ .other ∧
    ([0x12, 0x34] : List Byte).length = addrWidth (cfgT.kindOf 0x31) ∧
    ([0x12, 0x34] : List Byte).length + (List.replicate 252 (0xAB : Byte)).length + 1 ≤ 255 := ⟨by decide, by decide, by rw [List.length_replicate]; decide⟩

theorem test_hyps_ParseErrorsComeInOrder :
    lineKind cfgT [0x53, 0x31, 0x30] ≠ .other ∧ [0x53, 0x31, 0x30].length < 4 ∧
    lineKind cfgT [0x53, 0x31, 0x47, 0x34] ≠ .other ∧ 4 ≤ [0x53, 0x31, 0x47, 0x34].length ∧ hexPair cfgT.hexMode 0x47 0x34 = none ∧
    hexPair cfgT.hexMode 0x30 0x33 = some 3 ∧ [0x53, 0x31, 0x30, 0x33, 0x31, 0x32, 0x33, 0x34, 0x42].length < 4 + 2 * (3 : Byte).toNat ∧
    hexPair cfgT.hexMode 0x30 0x32 = some 2 ∧ (2 : Byte).toNat < addrWidth (lineKind cfgT [0x53, 0x31, 0x30, 0x32, 0x31, 0x32, 0x33, 0x34]) + 1 ∧
    addrWidth (lineKind cfgT [0x53, 0x31, 0x30, 0x33, 0x31, 0x32, 0x33, 0x34, 0x42, 0x36]) + 1 ≤ (3 : Byte).toNat ∧ 4 + 2 * (3 : Byte).toNat ≤ [0x53, 0x31, 0x30, 0x33, 0x31, 0x32, 0x33, 0x34, 0x42, 0x36].length ∧
    ∃ j < (3 : Byte).toNat, hexPair cfgT.hexMode ([0x53, 0x31, 0x30, 0x33, 0x31, 0x32, 0x33, 0x34, 0x42, 0x47].getD (4 + 2 * j) 0) ([0x53, 0x31, 0x30, 0x33, 0x31, 0x32, 0x33, 0x34, 0x42, 0x47].getD (5 + 2 * j) 0) = none ∧
    ∀ j < (3 : Byte).toNat, hexPair cfgT.hexMode ([0x53, 0x31, 0x30, 0x33, 0x31, 0x32, 0x33, 0x34, 0x42, 0x36].getD (4 + 2 * j) 0) ([0x53, 0x31, 0x30, 0x33, 0x31, 0x32, 0x33, 0x34, 0x42, 0x36].getD (5 + 2 * j) 0) ≠ none := by decide

theorem test_hyps_HexDigitsHaveTheirValues :
    (∀ (upper : Bool) (n : Fin 16), (0x2F : Byte) ≠ hexChar upper n.val) ∧
    (∀ (upper : Bool) (n : Fin 16), (0x3A : Byte) ≠ hexChar upper n.val) ∧
    (∀ (upper : Bool) (n : Fin 16), (0x40 : Byte) ≠ hexChar upper n.val) ∧
    (∀ (upper : Bool) (n : Fin 16), (0x47 : Byte) ≠ hexChar upper n.val) ∧
    (∀ (upper : Bool) (n : Fin 16), (0x60 : Byte) ≠ hexChar upper n.val) ∧
    (∀ (upper : Bool) (n : Fin 16), (0x67 : Byte) ≠ hexChar upper n.val) ∧
    hexDigit .reject 0x46 = some 15 ∧
    hexDigit .reject 0x47 = none := by decide

theorem test_hyps_ZeroSubstituteNeverReportsHex :
    { cfgT with hexMode := .zeroSubstitute }.hexMode = .zeroSubstitute := by decide

theorem test_hyps_PayloadLengthIsBounded :
    (List.replicate 256 (0x30 : Byte)).length ≤ 256 := by rw [List.length_replicate]

theorem test_hyps_RqPopRoutesTheRecord :
    (lineReady [0x53, 0x35]).linePath ∧
    (parseLine cfgT [0x53, 0x35]).kind = .other ∧
    (lineReady [0x53, 0x31, 0x30, 0x34, 0x31, 0x32, 0x33, 0x34, 0x41, 0x47, 0x30, 0x41]).linePath ∧
    (parseLine cfgT [0x53, 0x31, 0x30, 0x34, 0x31, 0x32, 0x33, 0x34, 0x41, 0x47, 0x30, 0x41]).kind ≠ .other ∧
    (parseLine cfgT [0x53, 0x31, 0x30, 0x34, 0x31, 0x32, 0x33, 0x34, 0x41, 0x47, 0x30, 0x41]).err = .hex ∧
    (lineReady [0x53, 0x31, 0x30]).linePath ∧
    (parseLine cfgT [0x53, 0x31, 0x30]).kind ≠ .other ∧
    (parseLine cfgT [0x53, 0x31, 0x30]).err = .length ∧
    (lineReady [0x53, 0x31, 0x30, 0x34, 0x31, 0x32, 0x33, 0x34, 0x41, 0x42, 0x30, 0x42]).linePath ∧
    (parseLine cfgT [0x53, 0x31, 0x30, 0x34, 0x31, 0x32, 0x33, 0x34, 0x41, 0x42, 0x30, 0x42]).kind ≠ .other ∧
    (parseLine cfgT [0x53, 0x31, 0x30, 0x34, 0x31, 0x32, 0x33, 0x34, 0x41, 0x42, 0x30, 0x42]).err = .none ∧
    (parseLine cfgT [0x53, 0x31, 0x30, 0x34, 0x31, 0x32, 0x33, 0x34, 0x41, 0x42, 0x30, 0x42]).valid = false ∧
    (lineReady [0x53, 0x31, 0x30, 0x33, 0x31, 0x32, 0x33, 0x34, 0x42, 0x36]).linePath ∧
    isData (parseLine cfgT [0x53, 0x31, 0x30, 0x33, 0x31, 0x32, 0x33, 0x34, 0x42, 0x36]).kind = true ∧
    (parseLine cfgT [0x53, 0x31, 0x30, 0x33, 0x31, 0x32, 0x33, 0x34, 0x42, 0x36]).err = .none ∧
    (parseLine cfgT [0x53, 0x31, 0x30, 0x33, 0x31, 0x32, 0x33, 0x34, 0x42, 0x36]).valid = true ∧
    (parseLine cfgT [0x53, 0x31, 0x30, 0x33, 0x31, 0x32, 0x33, 0x34, 0x42, 0x36]).payload = [] ∧
    (lineReady [0x53, 0x31, 0x30, 0x34, 0x31, 0x32, 0x33, 0x34, 0x41, 0x42, 0x30, 0x41]).linePath ∧
    isData (parseLine cfgT [0x53, 0x31, 0x30, 0x34, 0x31, 0x32, 0x33, 0x34, 0x41, 0x42, 0x30, 0x41]).kind = true ∧
    (parseLine cfgT [0x53, 0x31, 0x30, 0x34, 0x31, 0x32, 0x33, 0x34, 0x41, 0x42, 0x30, 0x41]).err = .none ∧
    (parseLine cfgT [0x53, 0x31, 0x30, 0x34, 0x31, 0x32, 0x33, 0x34, 0x41, 0x42, 0x30, 0x41]).valid = true ∧
    (parseLine cfgT [0x53, 0x31, 0x30, 0x34, 0x31, 0x32, 0x33, 0x34, 0x41, 0x42, 0x30, 0x41]).payload ≠ [] := by decide

theorem test_hyps_ValidEndRecordEndsTheTransfer :
    (lineReady [0x53, 0x39, 0x30, 0x33, 0x30, 0x30, 0x30, 0x30, 0x46, 0x43]).linePath ∧
    isEnd (parseLine cfgT [0x53, 0x39, 0x30, 0x33, 0x30, 0x30, 0x30, 0x30, 0x46, 0x43]).kind = true ∧
    (parseLine cfgT [0x53, 0x39, 0x30, 0x33, 0x30, 0x30, 0x30, 0x30, 0x46, 0x43]).valid = true ∧
    (lineReady [0x53, 0x39, 0x30, 0x33, 0x30, 0x30, 0x30, 0x30, 0x46, 0x43]).pm.valid = false ∧
    (withMerge (lineReady [0x53, 0x39, 0x30, 0x33, 0x30, 0x30, 0x30, 0x30, 0x46, 0x43]) 0x7FF8).pm.valid = true ∧
    phraseInWindow cfgT (withMerge (lineReady [0x53, 0x39, 0x30, 0x33, 0x30, 0x30, 0x30, 0x30, 0x46, 0x43]) 0x7FF8).pm.base = false ∧
    phraseInWindow cfgT (withMerge (lineReady [0x53, 0x39, 0x30, 0x33, 0x30, 0x30, 0x30, 0x30, 0x46, 0x43]) 0x9FF8).pm.base = true ∧
    (withMerge (lineReady [0x53, 0x39, 0x30, 0x33, 0x30, 0x30, 0x30, 0x30, 0x46, 0x43]) 0x9FF8).sc.ramReady = true ∧
    (noRam (withMerge (lineReady [0x53, 0x39, 0x30, 0x33, 0x30, 0x30, 0x30, 0x30, 0x46, 0x43]) 0x8000)).linePath ∧
    phraseInWindow cfgT (noRam (withMerge (lineReady [0x53, 0x39, 0x30, 0x33, 0x30, 0x30, 0x30, 0x30, 0x46, 0x43]) 0x8000)).pm.base = true ∧
    (noRam (withMerge (lineReady [0x53, 0x39, 0x30, 0x33, 0x30, 0x30, 0x30, 0x30, 0x46, 0x43]) 0x8000)).sc.ramReady = false := by decide

theorem test_hyps_LineRowsAreTheirRqPopStep :
    (lineReady [0x53, 0x39, 0x30, 0x33, 0x30, 0x30, 0x30, 0x30, 0x46, 0x43]).linePath ∧
    (lineReady [0x53, 0x39, 0x30, 0x33, 0x30, 0x30, 0x30, 0x30, 0x46, 0x43]).rq = [0x53, 0x39, 0x30, 0x33, 0x30, 0x30, 0x30, 0x30, 0x46, 0x43] :: [] := by decide

theorem test_hyps_DataRecordLinesLoadTheCursor :
    cfgT.wf = true ∧
    (lineReady (0x53 :: 0x31 :: recordText (fun _ => true) [0x12, 0x34] [0xAB] 0x0A [])).linePath ∧
    ([0x12, 0x34] : List Byte).length + ([0xAB] : List Byte).length + 1 ≤ 255 ∧
    ChecksumRelation [0x12, 0x34] [0xAB] 0x0A ∧
    cfgT.kinds.data16 = 0x31 ∧
    (lineReady (0x53 :: 0x32 :: recordText (fun _ => true) [0x00, 0x80, 0x10] [1, 2, 3, 4] 0x5D [])).linePath ∧
    ([0x00, 0x80, 0x10] : List Byte).length + ([1, 2, 3, 4] : List Byte).length + 1 ≤ 255 ∧
    ChecksumRelation [0x00, 0x80, 0x10] [1, 2, 3, 4] 0x5D ∧
    cfgT.kinds.data24 = 0x32 ∧
    (lineReady (0x53 :: 0x33 :: recordText (fun _ => true) [0, 0, 0x80, 0] [1] 0x78 [])).linePath ∧
    ([0, 0, 0x80, 0] : List Byte).length + ([1] : List Byte).length + 1 ≤ 255 ∧
    ChecksumRelation [0, 0, 0x80, 0] [1] 0x78 ∧
    cfgT.kinds.data32 = 0x33 := by
  unfold ChecksumRelation
  decide

theorem test_hyps_EndRecordLinesEndTheTransfer :
    cfgT.wf = true ∧
    (lineReady (0x53 :: 0x37 :: recordText (fun _ => true) [0, 0, 0x80, 0] [] 0x7A [])).linePath ∧
    ([0, 0, 0x80, 0] : List Byte).length + ([] : List Byte).length + 1 ≤ 255 ∧
    ChecksumRelation [0, 0, 0x80, 0] [] 0x7A ∧
    cfgT.kinds.end32 = 0x37 ∧
    (lineReady (0x53 :: 0x38 :: recordText (fun _ => true) [0, 0, 0] [] 0xFB [])).linePath ∧
    ([0, 0, 0] : List Byte).length + ([] : List Byte).length + 1 ≤ 255 ∧
    ChecksumRelation [0, 0, 0] [] 0xFB ∧
    cfgT.kinds.end24 = 0x38 ∧
    (lineReady (0x53 :: 0x39 :: recordText (fun _ => true) [0, 0] [] 0xFC [])).linePath ∧
    ([0, 0] : List Byte).length + ([] : List Byte).length + 1 ≤ 255 ∧
    ChecksumRelation [0, 0] [] 0xFC ∧
    cfgT.kinds.end16 = 0x39 ∧
    (lineReady [0x53]).pm.valid = false := by
  unfold ChecksumRelation
  decide

theorem test_hyps_OtherLinesAreOnlyNoted :
    (lineReady []).linePath ∧ otherLine cfgT [] = true ∧
    (lineReady [0x53]).linePath ∧ otherLine cfgT [0x53] = true ∧
    (lineReady [0x53, 0x34]).linePath ∧ otherLine cfgT [0x53, 0x34] = true ∧
    (lineReady [0x73, 0x31]).linePath ∧ otherLine cfgT [0x73, 0x31] = true := by decide

theorem test_hyps_WeCaseAStashesTheFragment :
    (working 0x8000 [1, 2, 3, 4]).host.state ≠ .app ∧
    (working 0x8000 [1, 2, 3, 4]).cons.state = .we ∧
    (working 0x8000 [1, 2, 3, 4]).we.addr.toNat % 8 = 0 ∧
    (working 0x8000 [1, 2, 3, 4]).we.data = [1, 2, 3, 4] ∧
    (withMerge (working 0x8000 [1, 2, 3, 4]) 0x8010).pm.valid = true := by decide

theorem test_hyps_WeCaseBMergesOrPads :
    (working 0x8004 [1, 2, 3, 4]).host.state ≠ .app ∧
    (working 0x8004 [1, 2, 3, 4]).cons.state = .we ∧
    (working 0x8004 [1, 2, 3, 4]).we.addr.toNat % 8 = 4 ∧
    (working 0x8004 [1, 2, 3, 4]).we.data = 1 :: 2 :: 3 :: 4 :: [] ∧
    phraseInWindow cfgT ((working 0x8004 [1, 2, 3, 4]).we.addr - 4) = true ∧
    (working 0x8004 [1, 2, 3, 4]).sc.ramReady = true ∧
    (noRam (working 0x8004 [1, 2, 3, 4])).sc.ramReady = false ∧
    (working 0x7FFC [1, 2, 3, 4]).we.addr.toNat % 8 = 4 ∧
    phraseInWindow cfgT ((working 0x7FFC [1, 2, 3, 4]).we.addr - 4) = false := by decide

theorem test_hyps_WeCaseCProgramsTheFirstPhrase :
    (working 0x9FF8 [1, 2, 3, 4, 5, 6, 7, 8]).host.state ≠ .app ∧
    (working 0x9FF8 [1, 2, 3, 4, 5, 6, 7, 8]).cons.state = .we ∧
    (working 0x9FF8 [1, 2, 3, 4, 5, 6, 7, 8]).we.addr.toNat % 8 = 0 ∧
    (working 0x9FF8 [1, 2, 3, 4, 5, 6, 7, 8]).we.data = 1 :: 2 :: 3 :: 4 :: 5 :: 6 :: 7 :: 8 :: [] ∧
    phraseInWindow cfgT (working 0x9FF8 [1, 2, 3, 4, 5, 6, 7, 8]).we.addr = true ∧
    (working 0x9FF8 [1, 2, 3, 4, 5, 6, 7, 8]).sc.ramReady = true ∧
    (noRam (working 0x9FF8 [1, 2, 3, 4, 5, 6, 7, 8])).sc.ramReady = false ∧
    (working 0xA000 [1, 2, 3, 4, 5, 6, 7, 8]).we.addr.toNat % 8 = 0 ∧
    phraseInWindow cfgT (working 0xA000 [1, 2, 3, 4, 5, 6, 7, 8]).we.addr = false := by decide

theorem test_hyps_WeSkipCountsTheRest :
    (working 0x8001 [1]).cons.state = .we ∧
    (working 0x8001 [1]).host.state ≠ .app ∧
    (working 0x8001 [1]).we.addr.toNat % 8 ≠ 0 ∧ (working 0x8001 [1]).we.addr.toNat % 8 ≠ 4 ∧
    (working 0x8007 [1]).we.addr.toNat % 8 ≠ 0 ∧ (working 0x8007 [1]).we.addr.toNat % 8 ≠ 4 ∧
    (working 0x8000 [1, 2, 3, 4, 5, 6, 7]).we.addr.toNat % 8 = 0 ∧ (working 0x8000 [1, 2, 3, 4, 5, 6, 7]).we.data.length ∈ [1, 2, 3, 5, 6, 7] ∧
    (working 0x8004 [1, 2, 3]).we.addr.toNat % 8 = 4 ∧ (working 0x8004 [1, 2, 3]).we.data.length < 4 := by decide

theorem test_hyps_WeFinishReturnsToIdle :
    (working 0x8000 []).host.state ≠ .app ∧
    (working 0x8000 []).cons.state = .we ∧
    (working 0x8000 []).we.data = [] := by decide

theorem test_hyps_ExactlyOneWriteStepMoves :
    (working 0x8000 []).host.state ≠ .app ∧
    (working 0x8000 []).cons.state = .we := by decide

theorem test_hyps_AlignedRecordIsProgrammedExactly :
    cfgT.wf = true ∧
    (working 0x9FF8 [1, 2, 3, 4, 5, 6, 7, 8]).host.state ≠ .app ∧
    (working 0x9FF8 [1, 2, 3, 4, 5, 6, 7, 8]).cons.state = .we ∧
    (working 0x9FF8 [1, 2, 3, 4, 5, 6, 7, 8]).sc.ramReady = true ∧
    (working 0x9FF8 [1, 2, 3, 4, 5, 6, 7, 8]).stor.wf = true ∧
    (working 0x9FF8 [1, 2, 3, 4, 5, 6, 7, 8]).we.addr.toNat % 8 = 0 ∧
    (working 0x9FF8 [1, 2, 3, 4, 5, 6, 7, 8]).we.data.length = 8 * 1 ∧
    cfgT.regionStart.toNat ≤ (working 0x9FF8 [1, 2, 3, 4, 5, 6, 7, 8]).we.addr.toNat ∧
    (working 0x9FF8 [1, 2, 3, 4, 5, 6, 7, 8]).we.addr.toNat + 8 * 1 ≤ cfgT.regionStart.toNat + cfgT.regionLen.toNat ∧
    ∀ k < 8 * 1, (working 0x9FF8 [1, 2, 3, 4, 5, 6, 7, 8]).storByte ((working 0x9FF8 [1, 2, 3, 4, 5, 6, 7, 8]).we.addr + BitVec.ofNat 32 k) = 0xFF := by decide

theorem test_hyps_CompletedProgramStoresThePhrase :
    (waiting .program8 0x8000 .we).sc.busy = true ∧
    (waiting .program8 0x8000 .we).sc.op = .program8 ∧
    (waiting .program8 0x8000 .we).stor.wf = true ∧
    ∀ k < 8, (waiting .program8 0x8000 .we).storByte ((waiting .program8 0x8000 .we).sc.addr + BitVec.ofNat 32 k) = 0xFF := by decide

theorem test_hyps_CompletedEraseClearsTheSector :
    (waiting .eraseSector 0x9000 .erase).sc.busy = true ∧
    (waiting .eraseSector 0x9000 .erase).sc.op = .eraseSector ∧
    (waiting .eraseSector 0x9000 .erase).stor.wf = true := by decide

theorem test_hyps_DrawsReachOnlyTheTarget :
    (waiting .program8 0x8000 .we).sc.busy = true ∧
    (waiting .program8 0x8000 .we).stor.wf = true ∧
    (waiting .program8 0x8000 .we).sc.op = .program8 ∧
    ({ waiting .program8 0x8000 .we with stor := [(0x8007, 1)] }).stor.wf = true ∧
    (∃ k < 8, ({ waiting .program8 0x8000 .we with stor := [(0x8007, 1)] }).storByte (({ waiting .program8 0x8000 .we with stor := [(0x8007, 1)] }).sc.addr + BitVec.ofNat 32 k) ≠ 0xFF) ∧
    (waiting .eraseSector 0x9000 .erase).sc.busy = true ∧
    (waiting .eraseSector 0x9000 .erase).stor.wf = true ∧
    (waiting .eraseSector 0x9000 .erase).sc.op = .eraseSector ∧
    (waiting .eraseSector 0x9000 .erase).cfg.wf = true ∧
    0 < cfgT.sectorSize ∧ 4095 < cfgT.sectorSize := by decide

/-- A last command outstanding while the HOST is idle, and the state its completion leaves: no agent is enabled there. -/
def owed : State := { waiting .program8 0x8000 .endFlush with host := { ready.host with state := .idle } }

def settled : State := after (.scDone .ok) owed

/-- A weakly fair run: the completion, then nothing but a selector held steady. -/
def fairEvents : Nat → Event
  | 0 => .trace 0x1A 0
  | _ + 1 => .bootSel true

def fairRun : Nat → State
  | 0 => owed
  | _ + 1 => settled

theorem test_settled_enables_nobody (a : Agent) : ¬ settled.enabled a := by
  rcases a with _ | _ | (_ | _) | _ | _ | _
  · unfold State.enabled; decide
  · unfold State.enabled; decide
  · unfold State.enabled; decide
  · unfold State.enabled; decide
  · unfold State.enabled; decide
  · unfold State.enabled; decide
  · exact id

theorem test_settled_stays : step { settled with sched := [.bootSel true] } = .next settled := rfl

theorem test_fair_run : IsRun fairEvents fairRun ∧ WeaklyFair fairEvents fairRun :=
  ⟨fun n => match n with
    | 0 => rfl
    | _ + 1 => test_settled_stays, fun a n h => absurd (h (n + 1) (by omega)) (test_settled_enables_nobody a)⟩

theorem test_hyps_UnsolicitedCompletionIsRefusedAndOwedOneComes :
    ready.sc.busy = false ∧
    IsRun fairEvents fairRun ∧ WeaklyFair fairEvents fairRun ∧ (fairRun 0).sc.busy = true :=
  ⟨rfl, test_fair_run.1, test_fair_run.2, rfl⟩

/-- End (c) of spec/70_reset_and_hazards.md R320: a byte still offered, as an arrival or as a trace step, bars it; one
that comes after the reset does not. End (d): the reset itself. -/
theorem test_run_ends :
    ready.finished ∧
    { ready with sched := [.csrRead 0, .externalReset true, .trace 0x02 0x31] }.finished ∧
    { working 0x8000 [1] with sched := [.externalReset true] }.finished := by
  refine ⟨⟨⟨rfl, rfl⟩, .inr (.inr (.inl ⟨rfl, by decide, rfl, rfl, rfl, nofun, rfl, rfl⟩))⟩,
    ⟨⟨rfl, rfl⟩, .inr (.inr (.inl ⟨rfl, by decide, rfl, rfl, rfl, nofun, rfl, rfl⟩))⟩,
    ⟨⟨rfl, rfl⟩, .inr (.inr (.inr rfl))⟩⟩

theorem test_run_goes_on :
    ¬ { ready with sched := [.rxByte 0x31] }.finished ∧
    ¬ { ready with sched := [.csrRead 0, .trace 0x01 0x31] }.finished ∧
    ¬ { ready with faultNoRam := true }.finished := by
  refine ⟨?_, ?_, fun h => nomatch h.1.1⟩ <;> rintro ⟨-, h | h | ⟨-, h, -⟩ | h⟩ <;> revert h <;> decide

theorem test_hyps_EraseRegionStartsOrIsRefused :
    ready.host.state ≠ .app ∧
    { ready with cons := { ready.cons with state := .off } }.cons.state = .off ∧
    ready.cons.state ≠ .off := by decide

theorem test_hyps_EraseStepSequencesTheWindow :
    ({ ready with cons := { ready.cons with state := .erase }, sc := { ready.sc with eraseIdx := 1 } }).host.state ≠ .app ∧
    ({ ready with cons := { ready.cons with state := .erase }, sc := { ready.sc with eraseIdx := 1 } }).cons.state = .erase ∧
    ({ ready with cons := { ready.cons with state := .erase }, sc := { ready.sc with eraseIdx := 1 } }).sc.eraseIdx < cfgT.regionLen.toNat / cfgT.sectorSize ∧
    ({ ready with cons := { ready.cons with state := .erase }, sc := { ready.sc with eraseIdx := 1 } }).sc.ramReady = true ∧
    (noRam ({ ready with cons := { ready.cons with state := .erase }, sc := { ready.sc with eraseIdx := 1 } })).sc.ramReady = false ∧
    cfgT.regionLen.toNat / cfgT.sectorSize ≤ ({ ready with cons := { ready.cons with state := .erase }, sc := { ready.sc with eraseIdx := 2 } }).sc.eraseIdx := by decide

theorem test_hyps_StoragePortInvariantKept :
    (waiting .program8 0x8000 .we).PortInv ∧ ∃ t, step { waiting .program8 0x8000 .we with sched := [.trace 0x1A 0] } = .next t ∧ t.sc.busy = false :=
  ⟨⟨by decide, fun _ => ⟨rfl, by decide, by decide⟩, fun h => by cases h⟩, _, rfl, by decide⟩

theorem test_hyps_FaultInvariantKept :
    (waiting .program8 0x8000 .we).FaultInv ∧ ∃ t, step { waiting .program8 0x8000 .we with sched := [.trace 0x1A 0] } = .next t ∧ t.cons.state = .we :=
  ⟨by unfold State.FaultInv; decide, _, rfl, by decide⟩

theorem test_hyps_StorageStaysCanonical :
    (waiting .program8 0x8000 .we).StorageInv ∧ ∃ t, step { waiting .program8 0x8000 .we with sched := [.trace 0x1A 0] } = .next t ∧ t.stor.length = 8 :=
  ⟨by unfold State.StorageInv; decide, _, rfl, by decide⟩

theorem test_hyps_CountersAndHoldStayBounded :
    ready.CountersInv ∧ ready.HoldInv ∧ ∃ t, step { waiting .program8 0x8000 .we with sched := [.rxByte 0x31] } = .next t ∧ t.rxHold = [0x31] :=
  ⟨⟨fun id => by cases id <;> decide, .inl rfl⟩, by unfold State.HoldInv; decide, _, rfl, by decide⟩

theorem test_hyps_OnlyCompletionOrResetWritesStorage :
    (ready.sc.busy = false ∧ ∃ t, step { ready with sched := [.rxByte 0x31] } = .next t ∧ t.bq.wr = 1) ∧
    ((waiting .program8 0x8000 .we).sc.busy = true ∧
      ∃ t, step { waiting .program8 0x8000 .we with sched := [.trace 0x1A 0] } = .next t ∧ t.stor ≠ []) ∧
    ∃ t, step { waiting .eraseSector 0x9000 .erase with stor := [(0x9000, 0)], sched := [.trace 0x19 0] } = .next t ∧
      t.stor ≠ [(0x9000, 0)] :=
  ⟨⟨by decide, _, rfl, by decide⟩, ⟨by decide, _, rfl, by decide⟩, _, rfl, by decide⟩

/-- spec/20_memory.md R84: a completed command leaves the older content where a stale HOST read may see it; with no
command completed a read gives the byte the array holds. -/
theorem test_stale_reads :
    (after (.scDone .ok) (waiting .program8 0x8000 .we)).past = [[]] ∧
    (stepped (.storRead 0x8001) { ready with stor := [(0x8001, 7)] }).reads = [.stor 0x8001 7] ∧
    (stepped .hostStep (hostIn .jump 0)).host.state = .idle := by decide

theorem test_hyps_StorageOutsideTheWindowNeverChanges :
    (waiting .program8 0x8000 .we).PortInv ∧ (∃ t, step { waiting .program8 0x8000 .we with sched := [.trace 0x1A 0] } = .next t ∧ t.stor.length = 8) ∧
    (0x7FFF : Addr).toNat < cfgT.regionStart.toNat ∧
    cfgT.regionStart.toNat + cfgT.regionLen.toNat ≤ (0xA000 : Addr).toNat :=
  ⟨⟨by decide, fun _ => ⟨rfl, by decide, by decide⟩, fun h => by cases h⟩, ⟨_, rfl, by decide⟩, by decide⟩

theorem test_hyps_NoByteEntersTheQueueWhileMasked :
    (waiting .program8 0x8000 .we).sc.busy = true ∧ (∀ level, { waiting .program8 0x8000 .we with sched := [.rxByte 0x31] }.sched.head? ≠ some (.externalReset level)) ∧
    ∃ t, step { waiting .program8 0x8000 .we with sched := [.rxByte 0x31] } = .next t ∧ t.rxHold = [0x31] :=
  ⟨by decide, by decide, _, rfl, by decide⟩

theorem test_hyps_FaultsAndRefusalsStick :
    (∀ level, { ready with sched := [.trace 0x00 0], faultNoRam := true }.sched.head? ≠ some (.externalReset level)) ∧
    ∃ t, step { ready with sched := [.trace 0x00 0], faultNoRam := true } = .next t ∧ t.refused ≠ none ∧
      t.faultNoRam = true :=
  ⟨by decide, _, rfl, by decide, by decide⟩

theorem test_hyps_ControlInputsTakeEffect :
    ready.host.state ≠ .idle ∧
    ready.host.state ≠ .app ∧
    ready.host.state = .loop := by decide

theorem test_hyps_SessionInitResetsIngestion :
    ready.host.state ≠ .app ∧
    ready.sc.busy = false ∧
    ready.rxHold = [] := by decide

theorem test_hyps_NotEnabledMovesNothing :
    (hostIn .init 0).host.state = .init ∧
    (hostIn .app 0).host.state = .app ∧
    (waiting .program8 0x8000 .we).sc.busy = true ∧
    ({ ready with rxHold := [0x31] }).rxHold ≠ [] ∧
    ready.sc.busy = false ∧ ready.rxHold = [] ∧
    ready.cfg.bqStaleView = false ∧
    ({ ready with cfg := { cfgT with bqStaleView := true } }.bq.rdSeen = ready.bq.rd ∧ ready.bq.wrSeen = ready.bq.wr) ∧
    (byteReady 0x0A ⟨[], true⟩ []).headByte = cfgT.newline ∧ (byteReady 0x41 ⟨[], true⟩ []).la.skip = true ∧
    (byteReady 0x41 ⟨List.replicate 12 0x53, false⟩ []).la.buf.length = cfgT.lineMax ∧
    (byteReady 0x41 ⟨[0x53], false⟩ []).headByte ≠ cfgT.newline ∧
    (byteReady 0x41 ⟨[0x53], false⟩ []).la.skip = false ∧
    (byteReady 0x41 ⟨[0x53], false⟩ []).la.buf.length ≠ cfgT.lineMax ∧
    (byteReady 0x41 ⟨[0x53], false⟩ []).la.buf.head? = some cfgT.marker ∧
    (byteReady 0x0A ⟨[], false⟩ []).la.buf.head? ≠ some cfgT.marker ∧
    (lineReady [0x53, 0x32]).rq.head? ≠ some (cfgT.marker :: cfgT.kinds.data16 :: []) ∧
    (lineReady [0x53, 0x32]).rq.head? ≠ some [] ∧ otherLine cfgT [0x53, 0x32] = false ∧
    (lineReady [0x53, 0x39]).rq.head? = some [0x53, 0x39] ∧
    (parseLine cfgT [0x53, 0x39]).valid = false ∧ isEnd (parseLine cfgT [0x53, 0x31]).kind = false ∧
    (waiting .program8 0x8000 .we).sc.op = .program8 ∧
    (waiting .eraseSector 0x9000 .erase).sc.busy = true ∧
    (waiting .eraseSector 0x9000 .erase).sc.op = .eraseSector ∧
    (hostIn .idle 0).host.state = .idle ∧
    (waiting .program8 0x8000 .we).cons.state ≠ .idle ∧
    ready.seenByCons = 0 ∧
    (let s := { byteReady 0x41 ⟨[], false⟩ [[0x53]] with cfg := { cfgT with consOrder := .linesFirst } };
      s.cfg.consOrder = .linesFirst ∧ s.rq ≠ []) ∧
    ready.rq = [] ∧
    (let s := { byteReady 0x41 ⟨[], false⟩ [[0x53]] with cfg := { cfgT with consOrder := .bytesFirst } };
      s.cfg.consOrder = .bytesFirst ∧ 0 < s.seenByCons) ∧
    ready.cons.state ≠ .we ∧
    ready.cons.state ≠ .erase ∧
    (hostIn .erase 0).host.state ≠ .loop := by decide

theorem test_hyps_NothingMovesAfterTheJump :
    (hostIn .app 0).host.state = .app ∧
    ∀ st, Instr.bqPop ≠ .scDone st ∧ Instr.bqPop ≠ .scProgram8 st ∧ Instr.bqPop ≠ .scEraseSector st := ⟨rfl, fun _ => by simp⟩

theorem test_hyps_HostBootsOnTheSelector :
    (hostIn .init 0).cfg.wf = true ∧
    (hostIn .init 0).sched = .hostStep :: [] ∧
    (hostIn .init 0).host.state = .init ∧
    (hostIn .decide 0).host.state = .decide ∧
    (hostIn .decide 0).host.bootSel = cfgT.bootSelActive ∧
    (State.powerOn cfgT false [] 0 [.hostStep]).host.bootSel ≠ cfgT.bootSelActive ∧
    { hostIn .init 0 with sched := [.bootSel false] }.sched = .bootSel false :: [] ∧
    (hostIn .loop 0).host.state ≠ .init ∧ (hostIn .loop 0).host.state ≠ .decide := by decide

/-- The selector's line is held steady until `H_DECIDE` has sampled it (spec/60_exceptions.md R294), and a new launch
finds it where the environment put it. -/
theorem test_bootSel_held_steady :
    (stepped (.bootSel false) (hostIn .decide 0)).host.bootSel = true ∧
    (stepped (.bootSel false) ready).host.bootSel = false ∧
    (stepped (.externalReset false) ready).host.bootSel = false := by decide

theorem test_hyps_HostErasePhases :
    (hostIn .erase 0).host.state = .erase ∧
    (hostIn .erase 0).host.phase = 0 ∧
    (hostIn .erase 1).host.phase = 1 ∧
    (hostIn .erase 1).sc.busy = false ∧ (hostIn .erase 1).rxHold = [] ∧
    { hostIn .erase 1 with rxHold := [0x31] }.rxHold ≠ [] ∧
    (hostIn .erase 2).host.phase = 2 ∧
    (hostIn .erase 3).host.phase = 3 ∧
    (hostIn .erase 3).ports.eraseDone = none ∧
    ((hostIn .erase 3).emitEraseDone .fail).ports.eraseDone = some .fail := by decide

theorem test_hyps_HostLoopRunsThenReports :
    (hostIn .loop 0).host.state = .loop ∧
    { hostIn .loop 0 with cons := { ready.cons with runEnabled := false } }.cons.runEnabled = false ∧
    (hostIn .loop 0).cons.runEnabled = true ∧
    (hostIn .loop 0).ports.transferDone = 0 ∧
    (hostIn .loop 0).emitTransferDone.ports.transferDone = 0 + 1 := by decide

/-- Storage with a first header word, and with both. -/
def image (both : Bool) : State :=
  { hostIn .jump 0 with stor := if both then [(0x8003, 0), (0x8004, 0)] else [(0x8003, 0)] }

theorem test_hyps_HostChecksTheImage :
    (hostIn .jump 0).host.state = .jump ∧
    (image true).past = [] ∧ (after (.scDone .ok) { waiting .program8 0x8000 .we with host := (hostIn .jump 0).host }).past ≠ [] ∧
    (∀ k < 4, (hostIn .jump 0).storByte (cfgT.regionStart + BitVec.ofNat 32 k) = 0xFF) ∧
    (∀ k < 4, (image false).storByte (cfgT.regionStart + BitVec.ofNat 32 (4 + k)) = 0xFF) ∧
    (∃ k < 4, (image true).storByte (cfgT.regionStart + BitVec.ofNat 32 k) ≠ 0xFF) ∧
    (∃ k < 4, (image true).storByte (cfgT.regionStart + BitVec.ofNat 32 (4 + k)) ≠ 0xFF) ∧
    (hostIn .idle 0).host.state = .idle := by decide

theorem test_hyps_ExternalResetRelaunches :
    ready.cfg.wf = true ∧
    { ready with sched := [.externalReset false] }.sched = .externalReset false :: [] ∧
    ready.sc.busy = false ∧
    (waiting .program8 0x8000 .we).sc.busy = true ∧
    (waiting .program8 0x8000 .we).StorageInv ∧
    (waiting .eraseSector 0x9000 .erase).sc.op = .eraseSector ∧
    (waiting .eraseSector 0x9000 .erase).StorageInv := by
  unfold State.StorageInv
  decide

theorem test_hyps_PowerOnMeetsTheInvariants :
    cfgT.wf = true ∧
    Memory.wf [(0, 0), (0xFFFFFFFF, 1)] = true := by decide

theorem test_hyps_PowerOnStatusRegisters :
    cfgT.wf = true := by decide

theorem test_hyps_RegistersShowLiveState :
    ready.cons.state = .idle ∧ (working 0x8000 []).cons.state = .we ∧ (waiting .program8 0x8000 .we).cons.state = .wait ∧
    (withMerge ready 0x8000).pm.valid = true ∧ ready.pm.valid = false ∧
    (waiting .program8 0x8000 .we).sc.op = .program8 ∧ (waiting .eraseSector 0x9000 .erase).sc.op = .eraseSector ∧
    ready.cfg.wf = true ∧
    { ready with sched := [.csrRead 0x21] }.sched = .csrRead 0x21 :: [] ∧
    { ready with sched := [.storRead 0xFFFFFFFF] }.sched = .storRead 0xFFFFFFFF :: [] ∧
    ready.sc.busy = false ∧ (waiting .program8 0x8000 .we).sc.busy = true ∧
    0x0A ≤ (0x0A : Byte).toNat ∧ (0x0F : Byte).toNat ≤ 0x0F ∧
    0x22 ≤ (0x22 : Byte).toNat ∧ 0x22 ≤ (0xFF : Byte).toNat := by decide

theorem test_hyps_PhraseIsInTheWindowWithItsBase :
    cfgT.wf = true ∧
    cfgT.sectorSize = 4096 ∧
    (0x8000 : Addr).toNat % 8 = 0 ∧ phraseInWindow cfgT 0x8000 = true ∧
    (0x9FF8 : Addr).toNat % 8 = 0 ∧ phraseInWindow cfgT 0x9FF8 = true ∧
    (0xA000 : Addr).toNat % 8 = 0 ∧ phraseInWindow cfgT 0xA000 = false := by decide

end Sys2Proof.Tests
end

section
/-! The fields that WE_SKIP, SESSION_INIT, RQ_POP and an external reset leave or set, one lemma per field, as
Sys2Proof/Laws/Frames.lean has them for the other operations. -/

namespace Sys2Proof.Machine

@[simp] theorem State.skipRest_cfg (s : State) : s.skipRest.cfg = s.cfg := rfl
@[simp] theorem State.skipRest_bq (s : State) : s.skipRest.bq = s.bq := rfl
@[simp] theorem State.skipRest_rxHold (s : State) : s.skipRest.rxHold = s.rxHold := rfl
@[simp] theorem State.skipRest_la (s : State) : s.skipRest.la = s.la := rfl
@[simp] theorem State.skipRest_rq (s : State) : s.skipRest.rq = s.rq := rfl
@[simp] theorem State.skipRest_pm (s : State) : s.skipRest.pm = s.pm := rfl
@[simp] theorem State.skipRest_sc (s : State) : s.skipRest.sc = s.sc := rfl
@[simp] theorem State.skipRest_cons (s : State) : s.skipRest.cons = { s.cons with state := .idle } := rfl
@[simp] theorem State.skipRest_faultNoRam (s : State) : s.skipRest.faultNoRam = s.faultNoRam := rfl
@[simp] theorem State.skipRest_refused (s : State) : s.skipRest.refused = s.refused := rfl
@[simp] theorem State.skipRest_stor (s : State) : s.skipRest.stor = s.stor := rfl

@[simp] theorem State.sessionReset_cfg (s : State) : s.sessionReset.cfg = s.cfg := rfl
@[simp] theorem State.sessionReset_rxHold (s : State) : s.sessionReset.rxHold = s.rxHold := rfl
@[simp] theorem State.sessionReset_la (s : State) : s.sessionReset.la = { buf := [], skip := false } := rfl
@[simp] theorem State.sessionReset_rq (s : State) : s.sessionReset.rq = [] := rfl
@[simp] theorem State.sessionReset_faultNoRam (s : State) : s.sessionReset.faultNoRam = s.faultNoRam := rfl
@[simp] theorem State.sessionReset_refused (s : State) : s.sessionReset.refused = s.refused := rfl
@[simp] theorem State.sessionReset_stor (s : State) : s.sessionReset.stor = s.stor := rfl

@[simp] theorem State.takeLine_cfg (s : State) : s.takeLine.cfg = s.cfg := by simp [State.takeLine]
@[simp] theorem State.takeLine_bq (s : State) : s.takeLine.bq = s.bq := by simp [State.takeLine]
@[simp] theorem State.takeLine_rxHold (s : State) : s.takeLine.rxHold = s.rxHold := by simp [State.takeLine]
@[simp] theorem State.takeLine_refused (s : State) : s.takeLine.refused = s.refused := by simp [State.takeLine]
@[simp] theorem State.takeLine_stor (s : State) : s.takeLine.stor = s.stor := by simp [State.takeLine]

@[simp] theorem State.laEolEmit_stor (s : State) : s.laEolEmit.stor = s.stor := by simp [State.laEolEmit]

@[simp] theorem State.relaunch_stor (s : State) (level : Bool) :
    (s.relaunch level).stor = s.interruptStorage.stor := rfl

end Sys2Proof.Machine
end

section
/-! The Byte Queue's invariant is kept by every step (spec/10_state.md R26, R27; spec/40_byte_queue.md R135). -/

namespace Sys2Proof.Machine

/-! ## What each queue operation does to the invariant -/

/-- The invariant reads the configuration and the Byte Queue only. -/
theorem State.QueueInv.congr {s t : State} (h : s.QueueInv) (hcfg : t.cfg = s.cfg) (hbq : t.bq = s.bq) :
    t.QueueInv := by
  unfold State.QueueInv State.seenByRx State.seenByCons State.rdView State.wrView State.bqCount at *
  rwa [hcfg, hbq]

/-- A copy that is up to date shows RX the read index. -/
theorem State.rdView_of_fresh {s : State} (h : s.bq.rdSeen = s.bq.rd) : s.rdView = s.bq.rd := by
  simp [State.rdView, h]

/-- A copy that is up to date shows CONS the write index. -/
theorem State.wrView_of_fresh {s : State} (h : s.bq.wrSeen = s.bq.wr) : s.wrView = s.bq.wr := by
  simp [State.wrView, h]

/-- With its copy up to date RX sees the truth. -/
theorem State.seenByRx_of_fresh {s : State} (h : s.bq.rdSeen = s.bq.rd) : s.seenByRx = s.bqCount := by
  rw [State.seenByRx, State.rdView_of_fresh h, State.bqCount]

/-- With its copy up to date CONS sees the truth. -/
theorem State.seenByCons_of_fresh {s : State} (h : s.bq.wrSeen = s.bq.wr) : s.seenByCons = s.bqCount := by
  rw [State.seenByCons, State.wrView_of_fresh h, State.bqCount]

/-- A byte is stored only where RX sees room, and RX sees the queue no emptier than it is. -/
theorem State.QueueInv.pushByte {s : State} (h : s.QueueInv) (b : Byte) : (s.pushByte b).QueueInv := by
  by_cases hfull : s.seenByRx = s.cfg.bqCap
  · rw [s.pushByte_full b hfull]
    exact h.congr rfl rfl
  · rw [s.pushByte_room b hfull]
    obtain ⟨hcap, hlen, -, hrd, hrx, hroom, hcons⟩ := h
    have hlt : s.seenByRx < s.cfg.bqCap := lt_of_le_of_ne hroom hfull
    have hcount : occupancy s.cfg.bqCap (nextIndex s.cfg.bqCap s.bq.wr) s.bq.rd = s.bqCount + 1 :=
      occupancy_next_wr hcap _ _ (show s.bqCount + 1 < _ by omega)
    have hseen : occupancy s.cfg.bqCap (nextIndex s.cfg.bqCap s.bq.wr) s.rdView = s.seenByRx + 1 :=
      occupancy_next_wr hcap _ _ (show s.seenByRx + 1 < _ by omega)
    refine ⟨hcap, by simpa using hlen, nextIndex_lt hcap _, hrd, ?_, ?_, ?_⟩
    · exact (hcount.trans_le (Nat.succ_le_succ hrx)).trans_eq hseen.symm
    · exact hseen.trans_le hlt
    · refine le_of_le_of_eq ?_ hcount.symm
      by_cases hstale : s.cfg.bqStaleView = true
      · simp only [State.seenByCons, State.wrView, hstale, if_true] at hcons ⊢
        omega
      · simp only [State.seenByCons, State.wrView, hstale, Bool.false_eq_true, if_false]
        exact hcount.le

/-- A byte is taken only where CONS sees one, and CONS sees the queue no fuller than it is. -/
theorem State.QueueInv.takeByte {s : State} (h : s.QueueInv) (hpos : 0 < s.seenByCons) : s.takeByte.QueueInv := by
  obtain ⟨hcap, hlen, hwr, -, hrx, hroom, hcons⟩ := h
  have hcount : s.takeByte.bqCount = s.bqCount - 1 := occupancy_next_rd hcap _ _ (hpos.trans_le hcons)
  have hseen : s.takeByte.seenByCons = s.seenByCons - 1 := occupancy_next_rd hcap _ _ hpos
  have hrx' : s.takeByte.bqCount ≤ s.takeByte.seenByRx ∧ s.takeByte.seenByRx ≤ s.cfg.bqCap := by
    by_cases hstale : s.cfg.bqStaleView = true
    · have hsame : s.takeByte.seenByRx = s.seenByRx := by simp [State.seenByRx, State.rdView, hstale]
      omega
    · have htrue : ∀ u : State, u.cfg = s.cfg → u.seenByRx = u.bqCount := fun u hu => by
        simp [State.seenByRx, State.rdView, State.bqCount, hu, hstale]
      have hnow := htrue s.takeByte rfl
      have hbefore := htrue s rfl
      omega
  exact ⟨hcap, hlen, hwr, nextIndex_lt hcap _, hrx'.1, hrx'.2, by omega⟩

/-- Once RX's copy is refreshed, RX sees the truth. -/
theorem State.QueueInv.syncRead {s : State} (h : s.QueueInv) :
    { s with bq := { s.bq with rdSeen := s.bq.rd } }.QueueInv := by
  obtain ⟨hcap, hlen, hwr, hrd, hrx, hroom, hcons⟩ := h
  have hseen : { s with bq := { s.bq with rdSeen := s.bq.rd } }.seenByRx = s.bqCount := State.seenByRx_of_fresh rfl
  exact ⟨hcap, hlen, hwr, hrd, hseen.ge, hseen.trans_le (hrx.trans hroom), hcons⟩

/-- Once CONS's copy is refreshed, CONS sees the truth. -/
theorem State.QueueInv.syncWrite {s : State} (h : s.QueueInv) :
    { s with bq := { s.bq with wrSeen := s.bq.wr } }.QueueInv := by
  obtain ⟨hcap, hlen, hwr, hrd, hrx, hroom, -⟩ := h
  exact ⟨hcap, hlen, hwr, hrd, hrx, hroom, (State.seenByCons_of_fresh rfl).le⟩

/-- SESSION_INIT empties the queue by moving the read index, which RX may see late. -/
theorem State.QueueInv.sessionReset {s : State} (h : s.QueueInv) : s.sessionReset.QueueInv := by
  obtain ⟨hcap, hlen, hwr, -, -, hroom, -⟩ := h
  have hcount : s.sessionReset.bqCount = 0 := occupancy_self hcap s.bq.wr
  have hrx : s.sessionReset.seenByRx ≤ s.cfg.bqCap := by
    by_cases hstale : s.cfg.bqStaleView = true
    · simpa [State.seenByRx, State.rdView, State.sessionReset, hstale] using hroom
    · have hview : s.sessionReset.rdView = s.bq.wr := by simp [State.rdView, State.sessionReset, hstale]
      have hseen : s.sessionReset.seenByRx = occupancy s.cfg.bqCap s.bq.wr s.bq.wr := by
        rw [State.seenByRx, hview]; rfl
      exact (hseen.trans (occupancy_self hcap _)).trans_le (Nat.zero_le _)
  exact ⟨hcap, hlen, hwr, hwr, hcount.trans_le (Nat.zero_le _), hrx, (State.seenByCons_of_fresh rfl).le⟩

/-- Right after power-on the queue is empty and both sides see it so. -/
theorem State.QueueInv.powerOn {c : Config} (hcap : 1 ≤ c.bqCap) (level : Bool) (m : Memory) (d : Nat)
    (sched : List Event) : (State.powerOn c level m d sched).QueueInv := by
  have hrx : (State.powerOn c level m d sched).seenByRx = (State.powerOn c level m d sched).bqCount :=
    State.seenByRx_of_fresh rfl
  have hcons : (State.powerOn c level m d sched).seenByCons = (State.powerOn c level m d sched).bqCount :=
    State.seenByCons_of_fresh rfl
  have hcount : (State.powerOn c level m d sched).bqCount = 0 := occupancy_self hcap 0
  have hpos : 0 < 2 * c.bqCap := by omega
  exact ⟨hcap, List.length_replicate, hpos, hpos, hrx.ge, (hrx.trans hcount).trans_le (Nat.zero_le _), hcons.le⟩

/-- Every move keeps the Byte Queue's invariant. -/
theorem State.QueueInv.move {s t : State} (h : s.QueueInv) (hm : Move s t) : t.QueueInv := by
  cases hm
  case push b _ _ _ => exact h.pushByte b
  case release _ => exact State.QueueInv.pushByte (s := { s with rxHold := s.rxHold.tail }) (h.congr rfl rfl) _
  case syncRead => exact h.syncRead
  case syncWrite => exact h.syncWrite
  case pop hpath =>
    obtain ⟨-, -, hpos, -⟩ := hpath
    exact (h.takeByte hpos).congr (by simp) (by simp)
  case session _ => exact h.sessionReset
  case hostSession host _ => exact State.QueueInv.sessionReset (s := { s with host := host }) (h.congr rfl rfl)
  all_goals exact h.congr (by simp) (by simp)

/-- Settles O10, from what each move does to the queue. -/
theorem byteQueueInvariantKept : Obligations.ByteQueueInvariantKept := by
  intro s t hs hstep
  refine step_keeps (P := State.QueueInv) (fun s rest h => h.congr rfl rfl) ?_ (fun s t _ h hm => h.move hm) hs hstep
  intro s _ level h
  exact State.QueueInv.powerOn h.1 level _ _ _

end Sys2Proof.Machine
end

section
/-! The invariant of the Line Assembler and the Record Queue is kept by every step (spec/10_state.md R29 to R31,
spec/41_line_assembler.md R155). -/

namespace Sys2Proof.Machine

/-- The invariant reads the configuration, the assembler and the queue only. -/
theorem State.LinesInv.congr {s t : State} (h : s.LinesInv) (hcfg : t.cfg = s.cfg) (hla : t.la = s.la)
    (hrq : t.rq = s.rq) : t.LinesInv := by
  unfold State.LinesInv at *
  rwa [hcfg, hla, hrq]

/-- An empty assembler with an empty queue meets the invariant: SESSION_INIT, the End reset and power-on leave them so. -/
theorem State.LinesInv.of_empty {t : State} (hla : t.la = { buf := [], skip := false }) (hrq : t.rq = []) :
    t.LinesInv := by
  unfold State.LinesInv
  simp [hla, hrq]

/-- Lines may leave the queue. -/
theorem State.LinesInv.dropLine {s : State} (h : s.LinesInv) : { s with rq := s.rq.tail }.LinesInv := by
  obtain ⟨hlen, hnl, hskip, hcap, hlines⟩ := h
  refine ⟨hlen, hnl, hskip, ?_, fun line hline => hlines line (List.mem_of_mem_tail hline)⟩
  simpa using (Nat.sub_le _ 1).trans hcap

/-- The buffer may be emptied, which ends a skip or leaves it as it is. -/
theorem State.LinesInv.emptyBuf {s : State} (h : s.LinesInv) {skip : Bool}
    (hmode : skip = true → s.cfg.overflowMode = .discardToNewline) :
    { s with la := { buf := [], skip := skip } }.LinesInv := by
  obtain ⟨-, -, -, hcap, hlines⟩ := h
  exact ⟨Nat.zero_le _, List.not_mem_nil, hmode, hcap, hlines⟩

/-- RQ_PUSH keeps the queue within its capacity. -/
theorem State.LinesInv.pushLine {s : State} (h : s.LinesInv) {line : List Byte} (hline : EmittedLine s.cfg line) :
    (s.pushLine line).LinesInv := by
  by_cases hfull : s.rq.length = s.cfg.rqCap
  · rw [s.pushLine_full line hfull]
    exact h.congr rfl rfl rfl
  · rw [s.pushLine_room line hfull]
    obtain ⟨hlen, hnl, hskip, hcap, hlines⟩ := h
    refine ⟨hlen, hnl, hskip, ?_, fun l hl => ?_⟩
    · simpa using Nat.succ_le_of_lt (lt_of_le_of_ne hcap hfull)
    · rcases List.mem_append.1 hl with hl | hl
      · exact hlines l hl
      · rwa [List.mem_singleton.1 hl]

/-- LA_BYTE keeps the invariant, one line operation at a time. -/
theorem State.LinesInv.laByte {s : State} (h : s.LinesInv) (b : Byte) : (s.laByte b).LinesInv := by
  obtain ⟨hlen, hnl, hskip, hcap, hlines⟩ := id h
  rcases lineOp_cases s.cfg s.la b with ⟨hb, -, hroom, hop⟩ | ⟨-, -, hop⟩ | ⟨-, -, hmarker, hop⟩ | ⟨-, -, hop⟩
  · rw [s.laByte_append b hop]
    refine ⟨?_, ?_, hskip, hcap, hlines⟩
    · simpa using Nat.succ_le_of_lt (lt_of_le_of_ne hlen hroom)
    · simpa using ⟨hnl, Ne.symm hb⟩
  · rw [s.laByte_overflow b hop, State.laOverflow]
    split
    · exact h
    · exact (h.emptyBuf fun hmode => of_decide_eq_true hmode).congr rfl rfl rfl
  · rw [s.laByte_eolEmit b hop]
    exact (h.emptyBuf hskip).pushLine ⟨hmarker, hnl, hlen⟩
  · rw [s.laByte_eolNoise b hop, State.laEolNoise]
    split
    · exact h.emptyBuf (by simp)
    · exact (h.emptyBuf hskip).congr rfl rfl rfl

/-- Routing a record leaves both as they are, or empties both at the end of a transfer. -/
theorem State.LinesInv.routeRecord {s : State} (h : s.LinesInv) (r : Record) : (s.routeRecord r).LinesInv := by
  rcases s.routeRecord_cases r with ⟨e, -, heq⟩ | heq | heq <;> rw [heq]
  · exact h.congr rfl rfl rfl
  · exact h.congr (by simp) (by simp) (by simp)
  · exact State.LinesInv.of_empty (by simp) (by simp)

/-- Every move keeps the lines' invariant. -/
theorem State.LinesInv.move {s t : State} (h : s.LinesInv) (hm : Move s t) : t.LinesInv := by
  cases hm
  case pop _ => exact State.LinesInv.laByte (s := s.takeByte) (h.congr rfl rfl rfl) _
  case line _ => exact h.dropLine.routeRecord _
  case session _ => exact State.LinesInv.of_empty rfl rfl
  case hostSession _ => exact State.LinesInv.of_empty rfl rfl
  all_goals exact h.congr (by simp) (by simp) (by simp)

/-- Settles O14, from what each move does to the buffer and the queue. -/
theorem linesInvariantKept : Obligations.LinesInvariantKept := by
  intro s t hs hstep
  refine step_keeps (P := State.LinesInv) (fun s rest h => h.congr rfl rfl rfl) ?_
    (fun s t _ h hm => h.move hm) hs hstep
  intro s _ level _
  exact State.LinesInv.of_empty rfl rfl

end Sys2Proof.Machine
end

section
/-! The invariants of the storage port (spec/10_state.md R34, R37, R40; spec/44_storage.md R230) and of the fault bit
(spec/10_state.md R40, R42) are kept by every step. -/

namespace Sys2Proof.Machine

/-! ## Where the operations leave CONS and the port -/

/-- WE_CASE_A stashes the cursor's four bytes at the cursor. -/
@[simp] theorem State.stash_pm (s : State) :
    s.stash.pm = { valid := true, base := s.we.addr, low4 := firstHalf s.we.data } := rfl

/-- SC_DONE sends CONS where `wait_ret` says (spec/44_storage.md R233). -/
theorem State.completeCommand_state (s : State) (st : Status) : (s.completeCommand st).cons.state =
    match s.cons.waitRet with
    | .we => .we
    | .endFlush => .idle
    | .erase => .erase := by
  cases hret : s.cons.waitRet <;> simp [State.completeCommand, State.afterDone, hret]

theorem State.completeCommand_state_ne (s : State) (st : Status) :
    (s.completeCommand st).cons.state ≠ .wait ∧ (s.completeCommand st).cons.state ≠ .fault := by
  rw [State.completeCommand_state]
  cases s.cons.waitRet <;> simp

/-- CTL_RUN moves CONS from `C_OFF` to `C_IDLE` and from nowhere else. -/
theorem State.enableRun_state_iff (s : State) {c : ConsState} (hoff : c ≠ .off) (hidle : c ≠ .idle) :
    s.enableRun.cons.state = c ↔ s.cons.state = c := by
  rw [State.enableRun_cons]
  by_cases h : s.cons.state = .off
  · simp [h, hoff.symm, hidle.symm]
  · simp [h]

/-- SESSION_INIT leaves CONS in `C_FAULT` or sends it to `C_OFF`. -/
theorem State.sessionReset_state_cases (s : State) :
    s.cons.state = .fault ∧ s.sessionReset.cons.state = .fault ∨
    s.cons.state ≠ .fault ∧ s.sessionReset.cons.state = .off := by
  by_cases h : s.cons.state = .fault
  · exact .inl ⟨h, if_pos h⟩
  · exact .inr ⟨h, if_neg h⟩

/-- What taking a data record does to CONS. -/
theorem State.takeData_state_cases (s : State) (r : Record) :
    (s.takeData r).cons.state = s.cons.state ∨ (s.takeData r).cons.state = .we := by
  unfold State.takeData
  split
  · exact .inl rfl
  · exact .inr rfl

theorem writeCase_caseA {a : Addr} {n : Nat} (h : writeCase a n = .caseA) : a.toNat % 8 = 0 := by
  have := writeCase_cases a n
  simp_all

theorem writeCase_caseB {a : Addr} {n : Nat} (h : writeCase a n = .caseB) : a.toNat % 8 = 4 := by
  have := writeCase_cases a n
  simp_all

theorem writeCase_caseC {a : Addr} {n : Nat} (h : writeCase a n = .caseC) : a.toNat % 8 = 0 := by
  have := writeCase_cases a n
  simp_all

/-- The phrase whose high half lies at an address of WE_CASE_B is aligned. -/
theorem sub_four_aligned {a : Addr} (h : a.toNat % 8 = 4) : (a - 4).toNat % 8 = 0 := by
  bv_omega

/-- The sector that ERASE_STEP erases next is a whole one of the window (spec/44_storage.md R241). -/
theorem State.eraseAddr_in_window {s : State} (hwf : s.cfg.wf = true) (hidx : s.sc.eraseIdx < sectorCount s.cfg) :
    s.eraseAddr.toNat % s.cfg.sectorSize = 0 ∧ s.cfg.regionStart.toNat ≤ s.eraseAddr.toNat ∧
    s.eraseAddr.toNat + s.cfg.sectorSize ≤ s.cfg.regionStart.toNat + s.cfg.regionLen.toNat := by
  simp only [Config.wf, Bool.and_eq_true, decide_eq_true_eq] at hwf
  obtain ⟨⟨⟨⟨⟨⟨⟨⟨⟨⟨hstart, -⟩, hpos⟩, htop⟩, -⟩, -⟩, -⟩, -⟩, -⟩, -⟩, -⟩ := hwf
  have hsector : (s.sc.eraseIdx + 1) * s.cfg.sectorSize ≤ s.cfg.regionLen.toNat :=
    (Nat.mul_le_mul_right _ hidx).trans (Nat.div_mul_le_self _ _)
  have hsize : 0 < s.cfg.sectorSize := by
    rcases Nat.eq_zero_or_pos s.cfg.sectorSize with h | h
    · simp [sectorCount, h] at hidx
    · exact h
  rw [Nat.add_mul, Nat.one_mul] at hsector
  have haddr : s.eraseAddr.toNat = s.cfg.regionStart.toNat + s.sc.eraseIdx * s.cfg.sectorSize := by
    rw [State.eraseAddr, BitVec.toNat_add, BitVec.toNat_ofNat, Nat.add_mod_mod]
    exact Nat.mod_eq_of_lt (by omega)
  rw [haddr]
  exact ⟨by rw [Nat.add_mul_mod_self_right, hstart], by omega, by omega⟩

/-! ## The storage port -/

/-- While CONS does not wait the port is free. -/
theorem State.PortInv.free {s : State} (h : s.PortInv) (hwait : s.cons.state ≠ .wait) : s.sc.busy = false :=
  Bool.eq_false_iff.2 fun hbusy => hwait (h.1.1 hbusy)

theorem State.PortInv.merge {s : State} (h : s.PortInv) : s.MergeInv := h.2.2

/-- A free port is sound where CONS does not wait. -/
theorem State.PortInv.of_free {t : State} (hfree : t.sc.busy = false) (hwait : t.cons.state ≠ .wait)
    (hmerge : t.MergeInv) : t.PortInv :=
  ⟨by simp [hfree, hwait], fun hbusy => absurd hbusy (by simp [hfree]), hmerge⟩

/-- The PendingMerge may change under the same command. -/
theorem State.PortInv.keep {s t : State} (h : s.PortInv) (hcfg : t.cfg = s.cfg) (hsc : t.sc = s.sc)
    (hcons : t.cons = s.cons) (hmerge : t.MergeInv) : t.PortInv := by
  unfold State.PortInv State.CommandOk at *
  rw [hcfg, hsc, hcons]
  exact ⟨h.1, h.2.1, hmerge⟩

theorem State.MergeInv.congr {s t : State} (h : s.MergeInv) (hpm : t.pm = s.pm) : t.MergeInv := by
  unfold State.MergeInv at *
  rwa [hpm]

theorem State.MergeInv.of_absent {t : State} (h : t.pm.valid = false) : t.MergeInv :=
  fun hvalid => absurd hvalid (by simp [h])

/-- The invariant reads the configuration, the port, CONS and the PendingMerge only. -/
theorem State.PortInv.congr {s t : State} (h : s.PortInv) (hcfg : t.cfg = s.cfg) (hsc : t.sc = s.sc)
    (hcons : t.cons = s.cons) (hpm : t.pm = s.pm) : t.PortInv :=
  h.keep hcfg hsc hcons (h.merge.congr hpm)

/-- SC_ISSUE sends an allowed command, or faults and sends none. -/
theorem State.PortInv.scIssue {s : State} {op : StorageOp} {addr : Addr} (hfree : s.sc.busy = false)
    (hmerge : s.MergeInv) (hok : { s with sc := { s.sc with op := op, addr := addr } }.CommandOk) (data : Phrase)
    (ret : WaitRet) : (s.scIssue op addr data ret).PortInv := by
  cases hready : s.sc.ramReady
  · rw [s.scIssue_fault op addr data ret hready]
    exact State.PortInv.of_free hfree (by simp) hmerge
  · rw [s.scIssue_ready op addr data ret hready]
    exact ⟨by simp, fun _ => ⟨hready, hok⟩, hmerge⟩

/-- ISSUE_PROGRAM8 sends an aligned phrase of the window, and no other. -/
theorem State.PortInv.issueProgram8 {s : State} (h : s.PortInv) (hwait : s.cons.state ≠ .wait) {base : Addr}
    (hbase : base.toNat % 8 = 0) (data : Phrase) (ret : WaitRet) : (s.issueProgram8 base data ret).PortInv := by
  cases hin : phraseInWindow s.cfg base
  · rw [s.issueProgram8_out base data ret hin]
    exact h.congr rfl rfl rfl rfl
  · rw [s.issueProgram8_in base data ret hin]
    exact State.PortInv.scIssue (op := .program8) (addr := base) (h.free hwait) h.merge ⟨hbase, hin⟩ data ret

theorem State.PortInv.announceEnd {s : State} (h : s.PortInv) : s.announceEnd.PortInv := by
  unfold State.announceEnd
  split
  · exact h
  next hout => exact State.PortInv.of_free (h.free fun hwait => hout (.inl hwait)) (by simp) h.merge

theorem State.PortInv.endTransfer {s : State} (h : s.PortInv) (hwait : s.cons.state ≠ .wait) :
    s.endTransfer.PortInv := by
  have hreset : s.endReset.PortInv := h.keep rfl rfl rfl (State.MergeInv.of_absent rfl)
  unfold State.endTransfer
  split
  next hvalid => exact (hreset.issueProgram8 hwait (h.merge hvalid) _ _).announceEnd
  next => exact hreset.announceEnd

theorem State.PortInv.routeRecord {s : State} (h : s.PortInv) (hwait : s.cons.state ≠ .wait) (r : Record) :
    (s.routeRecord r).PortInv := by
  rcases s.routeRecord_cases r with ⟨e, -, heq⟩ | heq | heq <;> rw [heq]
  · exact h.congr rfl rfl rfl rfl
  · refine State.PortInv.of_free (by simpa using h.free hwait) ?_ (h.merge.congr (by simp))
    rcases s.takeData_state_cases r with hstate | hstate <;> simp [hstate, hwait]
  · exact State.PortInv.endTransfer (s := s.count .endRec) (h.congr rfl rfl rfl rfl) hwait

theorem State.PortInv.mergeHigh {s : State} (h : s.PortInv) (hcase : s.weCase .caseB) : s.mergeHigh.PortInv := by
  obtain ⟨-, hwe, -, hcase⟩ := hcase
  have huse : s.useMerge.PortInv := h.keep (by simp) (by simp) (by simp) (State.MergeInv.of_absent (by simp))
  exact huse.issueProgram8 (by simp [hwe]) (sub_four_aligned (writeCase_caseB hcase)) _ _

theorem State.PortInv.programWhole {s : State} (h : s.PortInv) (hcase : s.weCase .caseC) : s.programWhole.PortInv := by
  obtain ⟨-, hwe, -, hcase⟩ := hcase
  have hadvance : (s.advance 8).PortInv := h.congr rfl rfl rfl rfl
  exact hadvance.issueProgram8 (by simp [hwe]) (writeCase_caseC hcase) _ _

theorem State.PortInv.startErase {s : State} (h : s.PortInv) : s.startErase.PortInv := by
  unfold State.startErase
  split
  next hoff => exact State.PortInv.of_free (h.free (by simp [hoff])) (by simp) h.merge
  next => exact h.congr rfl rfl rfl rfl

theorem State.PortInv.eraseNext {s : State} (h : s.PortInv) (hwf : s.cfg.wf = true) (herase : s.cons.state = .erase) :
    s.eraseNext.PortInv := by
  have hfree := h.free (by simp [herase])
  unfold State.eraseNext
  split
  next hidx =>
    exact State.PortInv.scIssue (op := .eraseSector) (addr := s.eraseAddr) hfree h.merge
      (State.eraseAddr_in_window hwf hidx) _ _
  next => exact State.PortInv.of_free hfree (by simp only [State.emitEraseDone_cons]; split <;> simp) h.merge

theorem State.PortInv.sessionReset {s : State} (hready : s.sessionReady) : s.sessionReset.PortInv := by
  refine State.PortInv.of_free hready.1 ?_ (State.MergeInv.of_absent rfl)
  rcases s.sessionReset_state_cases with ⟨-, hstate⟩ | ⟨-, hstate⟩ <;> simp [hstate]

theorem State.PortInv.setRamReady {s : State} (h : s.PortInv) : s.setRamReady.PortInv := by
  obtain ⟨hwait, hcommand, hmerge⟩ := h
  exact ⟨hwait, fun hbusy => ⟨rfl, (hcommand hbusy).2⟩, hmerge⟩

theorem State.PortInv.enableRun {s : State} (h : s.PortInv) : s.enableRun.PortInv := by
  obtain ⟨hwait, hcommand, hmerge⟩ := h
  exact ⟨hwait.trans (s.enableRun_state_iff (by simp) (by simp)).symm, hcommand, hmerge⟩

/-- Every move keeps the storage port sound. -/
theorem State.PortInv.move {s t : State} (h : s.PortInv) (hwf : s.cfg.wf = true) (hm : Move s t) : t.PortInv := by
  cases hm
  case line hpath =>
    obtain ⟨-, hidle, -⟩ := hpath
    exact State.PortInv.routeRecord (s := { s with rq := s.rq.tail }) (h.congr rfl rfl rfl rfl) (by simp [hidle]) _
  case caseA hcase =>
    obtain ⟨-, -, -, hcase⟩ := hcase
    exact h.keep (by simp) (by simp) (by simp) fun _ => writeCase_caseA hcase
  case caseB hcase => exact h.mergeHigh hcase
  case caseC hcase => exact h.programWhole hcase
  case skip hcase =>
    obtain ⟨-, hwe, -⟩ := hcase
    exact State.PortInv.of_free (h.free (by simp [hwe])) (by simp) (h.merge.congr rfl)
  case finish hwe => exact State.PortInv.of_free (h.free (by simp [hwe])) (by simp) h.merge
  case complete st _ =>
    exact State.PortInv.of_free (s.completeCommand_busy st) (s.completeCommand_state_ne st).1 (h.merge.congr (by simp))
  case startErase _ => exact h.startErase
  case hostErase host => exact State.PortInv.startErase (s := { s with host := host }) (h.congr rfl rfl rfl rfl)
  case eraseNext herase => exact h.eraseNext hwf herase
  case session hready => exact State.PortInv.sessionReset hready
  case hostSession host hready => exact State.PortInv.sessionReset (s := { s with host := host }) hready
  case ramReady => exact h.setRamReady
  case hostRamReady host => exact State.PortInv.setRamReady (s := { s with host := host }) (h.congr rfl rfl rfl rfl)
  case run => exact h.enableRun
  all_goals exact h.congr (by simp) (by simp) (by simp) (by simp)

/-- Settles O40, from what each move does to CONS, the port and the PendingMerge. -/
theorem storagePortInvariantKept : Obligations.StoragePortInvariantKept := by
  intro s t hs hstep
  refine step_keeps (P := State.PortInv) (fun s rest h => h.congr rfl rfl rfl rfl) ?_
    (fun s t hwf h hm => h.move hwf hm) hs hstep
  intro s _ level _
  exact State.PortInv.of_free rfl (by simp [State.relaunch, State.powerOn]) (State.MergeInv.of_absent rfl)

/-! ## The fault bit -/

/-- The invariant reads the fault bit, whether a command is outstanding, and where CONS is. -/
theorem State.FaultInv.congr {s t : State} (h : s.FaultInv) (hfault : t.faultNoRam = s.faultNoRam)
    (hbusy : t.sc.busy = s.sc.busy) (hstate : t.cons.state = s.cons.state) : t.FaultInv := by
  unfold State.FaultInv at *
  rwa [hfault, hbusy, hstate]

/-- While CONS does not wait the port is free. -/
theorem State.FaultInv.free {s : State} (h : s.FaultInv) (hwait : s.cons.state ≠ .wait) : s.sc.busy = false :=
  Bool.eq_false_iff.2 fun hbusy => hwait (h.2.1 hbusy)

/-- While CONS is not stopped there is no fault. -/
theorem State.FaultInv.unset {s : State} (h : s.FaultInv) (hfault : s.cons.state ≠ .fault) : s.faultNoRam = false :=
  Bool.eq_false_iff.2 fun hset => hfault (h.1.2 hset)

/-- CONS at work with a free port and no fault. -/
theorem State.FaultInv.of_free {t : State} (hunset : t.faultNoRam = false) (hfree : t.sc.busy = false)
    (hfault : t.cons.state ≠ .fault) (hwait : t.cons.state ≠ .wait) : t.FaultInv :=
  ⟨by simp [hunset, hfault], by simp [hfree, hwait]⟩

/-- SC_ISSUE sets the fault bit and stops CONS, or does neither. -/
theorem State.FaultInv.scIssue {s : State} (hunset : s.faultNoRam = false) (hfree : s.sc.busy = false) (op : StorageOp)
    (addr : Addr) (data : Phrase) (ret : WaitRet) : (s.scIssue op addr data ret).FaultInv := by
  cases hready : s.sc.ramReady
  · rw [s.scIssue_fault op addr data ret hready]
    exact ⟨by simp, by simp [hfree]⟩
  · rw [s.scIssue_ready op addr data ret hready]
    exact ⟨by simp [hunset], by simp⟩

theorem State.FaultInv.issueProgram8 {s : State} (h : s.FaultInv) (hfault : s.cons.state ≠ .fault)
    (hwait : s.cons.state ≠ .wait) (base : Addr) (data : Phrase) (ret : WaitRet) :
    (s.issueProgram8 base data ret).FaultInv := by
  cases hin : phraseInWindow s.cfg base
  · rw [s.issueProgram8_out base data ret hin]
    exact h.congr rfl rfl rfl
  · rw [s.issueProgram8_in base data ret hin]
    exact State.FaultInv.scIssue (h.unset hfault) (h.free hwait) _ _ _ _

theorem State.FaultInv.announceEnd {s : State} (h : s.FaultInv) : s.announceEnd.FaultInv := by
  unfold State.announceEnd
  split
  · exact h
  next hout =>
    obtain ⟨hwait, hfault⟩ := not_or.1 hout
    exact State.FaultInv.of_free (h.unset hfault) (h.free hwait) (by simp) (by simp)

theorem State.FaultInv.endTransfer {s : State} (h : s.FaultInv) (hfault : s.cons.state ≠ .fault)
    (hwait : s.cons.state ≠ .wait) : s.endTransfer.FaultInv := by
  have hreset : s.endReset.FaultInv := h.congr rfl rfl rfl
  unfold State.endTransfer
  split
  · exact (hreset.issueProgram8 hfault hwait _ _ _).announceEnd
  · exact hreset.announceEnd

theorem State.FaultInv.routeRecord {s : State} (h : s.FaultInv) (hfault : s.cons.state ≠ .fault)
    (hwait : s.cons.state ≠ .wait) (r : Record) : (s.routeRecord r).FaultInv := by
  rcases s.routeRecord_cases r with ⟨e, -, heq⟩ | heq | heq <;> rw [heq]
  · exact h.congr rfl rfl rfl
  · rcases s.takeData_state_cases r with hstate | hstate
    · exact h.congr (by simp) (by simp) hstate
    · exact State.FaultInv.of_free (by simpa using h.unset hfault) (by simpa using h.free hwait) (by simp [hstate])
        (by simp [hstate])
  · exact State.FaultInv.endTransfer (s := s.count .endRec) (h.congr rfl rfl rfl) hfault hwait

theorem State.FaultInv.startErase {s : State} (h : s.FaultInv) : s.startErase.FaultInv := by
  unfold State.startErase
  split
  next hoff =>
    exact State.FaultInv.of_free (h.unset (by simp [hoff])) (h.free (by simp [hoff])) (by simp) (by simp)
  next => exact h.congr rfl rfl rfl

theorem State.FaultInv.eraseNext {s : State} (h : s.FaultInv) (herase : s.cons.state = .erase) :
    s.eraseNext.FaultInv := by
  have hunset := h.unset (by simp [herase])
  have hfree := h.free (by simp [herase])
  unfold State.eraseNext
  split
  · exact State.FaultInv.scIssue hunset hfree _ _ _ _
  · refine State.FaultInv.of_free hunset hfree ?_ ?_ <;> simp only [State.emitEraseDone_cons] <;> split <;> simp

/-- SESSION_INIT keeps the fault bit, and `C_FAULT` with it. -/
theorem State.FaultInv.sessionReset {s : State} (h : s.FaultInv) (hready : s.sessionReady) :
    s.sessionReset.FaultInv := by
  rcases s.sessionReset_state_cases with ⟨hfault, hstate⟩ | ⟨hfault, hstate⟩
  · exact h.congr rfl rfl (hstate.trans hfault.symm)
  · exact State.FaultInv.of_free (h.unset hfault) hready.1 (by simp [hstate]) (by simp [hstate])

theorem State.FaultInv.enableRun {s : State} (h : s.FaultInv) : s.enableRun.FaultInv := by
  obtain ⟨hfault, hwait⟩ := h
  exact ⟨(s.enableRun_state_iff (by simp) (by simp)).trans hfault,
    hwait.trans (s.enableRun_state_iff (by simp) (by simp)).symm⟩

/-- Every move keeps `C_FAULT` and the fault bit together. -/
theorem State.FaultInv.move {s t : State} (h : s.FaultInv) (hm : Move s t) : t.FaultInv := by
  have at_work : s.cons.state = .we → s.faultNoRam = false ∧ s.sc.busy = false := fun hwe =>
    ⟨h.unset (by simp [hwe]), h.free (by simp [hwe])⟩
  cases hm
  case line hpath =>
    obtain ⟨-, hidle, -⟩ := hpath
    exact State.FaultInv.routeRecord (s := { s with rq := s.rq.tail }) (h.congr rfl rfl rfl) (by simp [hidle])
      (by simp [hidle]) _
  case caseB hcase =>
    obtain ⟨-, hwe, -⟩ := hcase
    exact State.FaultInv.issueProgram8 (s := s.useMerge) (h.congr (by simp) (by simp) (by simp)) (by simp [hwe])
      (by simp [hwe]) _ _ _
  case caseC hcase =>
    obtain ⟨-, hwe, -⟩ := hcase
    exact State.FaultInv.issueProgram8 (s := s.advance 8) (h.congr rfl rfl rfl) (by simp [hwe]) (by simp [hwe]) _ _ _
  case skip hcase =>
    obtain ⟨-, hwe, -⟩ := hcase
    obtain ⟨hunset, hfree⟩ := at_work hwe
    exact State.FaultInv.of_free hunset hfree (by simp) (by simp)
  case finish hwe =>
    obtain ⟨hunset, hfree⟩ := at_work hwe
    exact State.FaultInv.of_free hunset hfree (by simp) (by simp)
  case complete st hbusy =>
    have hunset := h.unset (by simp [h.2.1 hbusy])
    obtain ⟨hwait, hfault⟩ := s.completeCommand_state_ne st
    exact State.FaultInv.of_free (by simpa using hunset) (s.completeCommand_busy st) hfault hwait
  case startErase _ => exact h.startErase
  case hostErase host => exact State.FaultInv.startErase (s := { s with host := host }) (h.congr rfl rfl rfl)
  case eraseNext herase => exact h.eraseNext herase
  case session hready => exact h.sessionReset hready
  case hostSession host hready =>
    exact State.FaultInv.sessionReset (s := { s with host := host }) (h.congr rfl rfl rfl) hready
  case run => exact h.enableRun
  all_goals exact h.congr (by simp) (by simp) (by simp)

/-- Settles O41, from what each move does to CONS, the port and the fault bit. -/
theorem faultInvariantKept : Obligations.FaultInvariantKept := by
  intro s t hs hstep
  refine step_keeps (P := State.FaultInv) (fun s rest h => h.congr rfl rfl rfl) ?_
    (fun s t _ h hm => h.move hm) hs hstep
  intro s _ level _
  exact State.FaultInv.of_free rfl rfl (by simp [State.relaunch, State.powerOn])
    (by simp [State.relaunch, State.powerOn])

end Sys2Proof.Machine
end

section
/-! The storage array keeps its canonical form (spec/10_state.md R44, log 1), only a completion or an external reset
writes it (spec/44_storage.md R231 to R233, spec/70_reset_and_hazards.md R301), and the fault bit and the refusal mark
are sticky (spec/10_state.md R42). -/

namespace Sys2Proof.Machine

/-! ## The canonical form -/

theorem State.StorageInv.congr {s t : State} (h : s.StorageInv) (hstor : t.stor = s.stor) : t.StorageInv := by
  unfold State.StorageInv at *
  rwa [hstor]

theorem State.StorageInv.drawStorage {s : State} (h : s.StorageInv) (a : Addr) (n : Nat) :
    (s.drawStorage a n).StorageInv :=
  Memory.wf_writeBytes h a _

/-- Both commands keep the form, whatever their status. -/
theorem State.StorageInv.arrayEffect {s : State} (h : s.StorageInv) (st : Status) : (s.arrayEffect st).StorageInv := by
  unfold State.arrayEffect
  split
  · unfold State.programEffect
    split
    · exact Memory.wf_writeBytes h _ _
    · exact h.drawStorage _ _
  · cases st
    · exact Memory.wf_eraseRange h _ _
    · exact h.drawStorage _ _

/-- An interrupted command keeps the form. -/
theorem State.StorageInv.interruptStorage {s : State} (h : s.StorageInv) : s.interruptStorage.StorageInv := by
  unfold State.interruptStorage
  split
  · split <;> exact h.drawStorage _ _
  · exact h

/-- With no command outstanding an external reset interrupts none. -/
theorem State.interruptStorage_free {s : State} (hfree : s.sc.busy = false) : s.interruptStorage = s := by
  simp [State.interruptStorage, hfree]

/-- A move writes the array only by completing the outstanding command. -/
theorem Move.stor_cases {s t : State} (hm : Move s t) :
    t.stor = s.stor ∨ s.sc.busy = true ∧ ∃ st, t = s.completeCommand st := by
  cases hm
  case complete st hbusy => exact .inr ⟨hbusy, st, rfl⟩
  all_goals exact .inl (by simp)

/-- Settles O42: a completion and an interrupted command write in canonical form, and nothing else writes. -/
theorem storageStaysCanonical : Obligations.StorageStaysCanonical := by
  intro s t hs hstep
  refine step_keeps (P := State.StorageInv) (fun s rest h => h.congr rfl) ?_ ?_ hs hstep
  · intro s _ level h
    exact h.interruptStorage.congr rfl
  · intro s t _ h hm
    rcases hm.stor_cases with hstor | ⟨-, st, rfl⟩
    · exact h.congr hstor
    · exact (h.arrayEffect st).congr (s.completeCommand_stor st)

/-! ## Who writes the array -/

/-- What an attempted effect leaves, the attempt leaves. -/
theorem attempt_keeps {α : Type} (f : State → α) {p : Prop} [Decidable p] {s t u : State}
    (h : attempt p s t = .next u) (ht : f t = f s) : f u = f s := by
  rcases attempt_cases h with ⟨-, rfl⟩ | ⟨-, rfl⟩
  · exact ht
  · rfl

/-- An operation of any other agent than the storage controller leaves the array. -/
theorem exec_stor {i : Instr} {s t : State} (hi : agentOf i ≠ .sc) (h : exec i s = .next t) : t.stor = s.stor := by
  cases i <;> simp only [exec] at h
  case scProgram8 => exact absurd rfl hi
  case scEraseSector => exact absurd rfl hi
  case scDone => exact absurd rfl hi
  case bqSync side => cases side <;> exact attempt_keeps State.stor h rfl
  all_goals exact attempt_keeps State.stor h (by simp)

/-- No step of the HOST's own writes the array. -/
theorem State.hostStep_stor (s : State) : s.hostStep.stor = s.stor := by
  unfold State.hostStep
  split
  · rfl
  · unfold State.hostDecide; split <;> rfl
  · unfold State.hostErase; split
    · rfl
    · split <;> rfl
    · simp
    · split <;> rfl
  · unfold State.hostLoop; split
    · rfl
    · split <;> rfl
  · unfold State.hostJump State.checkImage; split <;> rfl
  · rfl
  · rfl

theorem plainOp_ok {i j : Instr} {code : BitVec 5} {arg : Byte} (h : plainOp j code arg = .ok i) : i = j := by
  unfold plainOp at h
  split at h
  · cases h; rfl
  · cases h

theorem sideOp_ok {f : Side → Instr} {i : Instr} {code : BitVec 5} {arg : Byte} (h : sideOp f code arg = .ok i) :
    ∃ side, i = f side := by
  unfold sideOp at h
  split at h
  · cases h; exact ⟨_, rfl⟩
  · split at h
    · cases h; exact ⟨_, rfl⟩
    · cases h

/-- The codes of the storage controller's operations (spec/30_encoding.md R106). -/
theorem decodeOp_sc {code : BitVec 5} {arg : Byte} {i : Instr} (h : decodeOp code arg = .ok i)
    (hi : agentOf i = .sc) : code = 0x18 ∨ code = 0x19 ∨ code = 0x1A := by
  unfold decodeOp at h
  split at h
  case h_1 => cases h; cases hi
  case h_2 => cases h; cases hi
  case h_4 => obtain ⟨side, rfl⟩ := sideOp_ok h; cases hi
  case h_20 hcode => exact .inl (BitVec.eq_of_toNat_eq hcode)
  case h_21 hcode => exact .inr (.inl (BitVec.eq_of_toNat_eq hcode))
  case h_22 hcode => exact .inr (.inr (BitVec.eq_of_toNat_eq hcode))
  case h_28 => cases h
  all_goals cases plainOp_ok h; cases hi

/-- A queued line is never a step of the storage controller. -/
theorem agentOf_decodeLine (c : Config) (line : List Byte) : agentOf (decodeLine c line) = .cons := by
  unfold decodeLine
  split <;> rfl

/-- Nor is a byte's arrival. -/
theorem agentOf_arrival (s : State) (b : Byte) : agentOf (s.arrival b) ≠ .sc := by
  unfold State.arrival
  split <;> simp [agentOf]

/-- An entry of the schedule that writes the array is a trace step of the storage controller or an external reset. -/
theorem takeEvent_stor {e : Event} {s t : State} (h : s.takeEvent e = .next t) (hne : t.stor ≠ s.stor) :
    (∃ code arg, e = .trace code arg ∧ (code = 0x18 ∨ code = 0x19 ∨ code = 0x1A)) ∨
    ∃ level, e = .externalReset level := by
  cases e <;> simp only [State.takeEvent] at h
  case trace code arg =>
    refine .inl ⟨code, arg, rfl, ?_⟩
    simp only [State.runFetched, decode] at h
    split at h
    next i hi => exact decodeOp_sc hi (by_contra fun hagent => hne (exec_stor hagent h))
    next => cases h; exact absurd rfl hne
  case record =>
    split at h
    · cases h; exact absurd rfl hne
    · exact absurd (exec_stor (by simp [agentOf_decodeLine]) h) hne
  case rxByte b => exact absurd (exec_stor (agentOf_arrival s b) h) hne
  case hostStep => cases h; exact absurd s.hostStep_stor hne
  case csrRead => cases h; exact absurd rfl hne
  case storRead =>
    cases h
    exact absurd (by unfold State.readStor; split <;> rfl) hne
  case bootSel => cases h; exact absurd (by simp) hne
  case externalReset level => exact .inr ⟨level, rfl⟩

/-- A step that writes the array takes a trace step of the storage controller or an external reset. -/
theorem step_stor {s t : State} (hstep : step s = .next t) (hne : t.stor ≠ s.stor) :
    (∃ code arg rest, s.sched = .trace code arg :: rest ∧ (code = 0x18 ∨ code = 0x19 ∨ code = 0x1A)) ∨
    ∃ level rest, s.sched = .externalReset level :: rest := by
  unfold step at hstep
  split at hstep
  next =>
    split at hstep
    next => cases hstep; exact absurd rfl hne
    next e rest hsched =>
      rcases takeEvent_stor hstep hne with ⟨code, arg, rfl, hcode⟩ | ⟨level, rfl⟩
      · exact .inl ⟨code, arg, rest, hsched, hcode⟩
      · exact .inr ⟨level, rest, hsched⟩
  next => cases hstep

/-- Settles O44: without a command a step writes nothing, and with one only a completion or an external reset does. -/
theorem onlyCompletionOrResetWritesStorage : Obligations.OnlyCompletionOrResetWritesStorage := by
  intro s t hstep
  obtain ⟨-, ⟨-, rfl⟩ | ⟨e, rest, hsched, hcases⟩⟩ := step_moves hstep
  · exact ⟨fun _ => rfl, fun _ hne => absurd rfl hne⟩
  refine ⟨fun hfree => ?_, fun _ hne => ?_⟩
  · rcases hcases with ⟨level, -, rfl⟩ | ⟨-, hm⟩
    · rw [State.relaunch_stor, State.interruptStorage_free (by exact hfree)]
    · rcases hm.stor_cases with hstor | ⟨hbusy, -⟩
      · exact hstor
      · simp [hfree] at hbusy
  · rcases step_stor hstep hne with ⟨code, arg, rest, hsched, hcode⟩ | ⟨level, rest, hsched⟩
    · rcases hcode with rfl | rfl | rfl <;> exact .inl ⟨arg, by simp [hsched]⟩
    · exact .inr ⟨level, by simp [hsched]⟩

/-! ## Sticky marks -/

/-- What is marked in `s` is marked in `t`. -/
def State.Sticks (s t : State) : Prop :=
  (s.faultNoRam = true → t.faultNoRam = true) ∧ (s.refused ≠ none → t.refused ≠ none)

theorem State.Sticks.of_eq {s t : State} (hfault : t.faultNoRam = s.faultNoRam) (hrefused : t.refused = s.refused) :
    s.Sticks t :=
  ⟨fun h => hfault.trans h, fun h => by rwa [hrefused]⟩

theorem State.Sticks.trans {s t u : State} (hst : s.Sticks t) (htu : t.Sticks u) : s.Sticks u :=
  ⟨fun h => htu.1 (hst.1 h), fun h => htu.2 (hst.2 h)⟩

theorem State.refuse_sticks (s : State) (r : RefuseReason) : s.Sticks (s.refuse r) :=
  ⟨fun h => h, fun _ => by simp⟩

/-- SC_ISSUE may set the fault bit, and clears nothing. -/
theorem State.scIssue_sticks (s : State) (op : StorageOp) (addr : Addr) (data : Phrase) (ret : WaitRet) :
    s.Sticks (s.scIssue op addr data ret) := by
  cases hready : s.sc.ramReady
  · rw [s.scIssue_fault op addr data ret hready]
    exact ⟨fun _ => rfl, fun h => h⟩
  · rw [s.scIssue_ready op addr data ret hready]
    exact .of_eq rfl rfl

theorem State.issueProgram8_sticks (s : State) (base : Addr) (data : Phrase) (ret : WaitRet) :
    s.Sticks (s.issueProgram8 base data ret) := by
  unfold State.issueProgram8
  split
  · exact s.scIssue_sticks _ _ _ _
  · exact .of_eq rfl rfl

theorem State.announceEnd_sticks (s : State) : s.Sticks s.announceEnd :=
  .of_eq (by simp) (by simp)

theorem State.endTransfer_sticks (s : State) : s.Sticks s.endTransfer := by
  have hreset : s.Sticks s.endReset := .of_eq rfl rfl
  unfold State.endTransfer
  split
  · exact (hreset.trans (s.endReset.issueProgram8_sticks _ _ _)).trans (State.announceEnd_sticks _)
  · exact hreset.trans (State.announceEnd_sticks _)

theorem State.routeRecord_sticks (s : State) (r : Record) : s.Sticks (s.routeRecord r) := by
  rcases s.routeRecord_cases r with ⟨e, -, heq⟩ | heq | heq <;> rw [heq]
  · exact .of_eq rfl rfl
  · exact .of_eq (by simp) (by simp)
  · exact State.Sticks.trans (t := s.count .endRec) (.of_eq rfl rfl) (State.endTransfer_sticks _)

theorem State.startErase_sticks (s : State) : s.Sticks s.startErase := by
  unfold State.startErase
  split
  · exact .of_eq rfl rfl
  · exact s.refuse_sticks _

theorem State.eraseNext_sticks (s : State) : s.Sticks s.eraseNext := by
  unfold State.eraseNext
  split
  · exact s.scIssue_sticks _ _ _ _
  · exact .of_eq rfl rfl

/-- Every move keeps both marks. -/
theorem Move.sticks {s t : State} (hm : Move s t) : s.Sticks t := by
  cases hm
  case line _ =>
    exact State.Sticks.trans (t := { s with rq := s.rq.tail }) (.of_eq rfl rfl)
      (State.routeRecord_sticks _ _)
  case caseB _ =>
    exact State.Sticks.trans (t := s.useMerge) (.of_eq (by simp) (by simp))
      (State.issueProgram8_sticks _ _ _ _)
  case caseC _ => exact State.Sticks.trans (t := s.advance 8) (.of_eq rfl rfl) (State.issueProgram8_sticks _ _ _ _)
  case refuse r => exact s.refuse_sticks r
  case startErase _ => exact s.startErase_sticks
  case hostErase host =>
    exact State.Sticks.trans (t := { s with host := host }) (.of_eq rfl rfl)
      (State.startErase_sticks _)
  case eraseNext _ => exact s.eraseNext_sticks
  all_goals exact .of_eq (by simp) (by simp)

/-- Settles O47: a step that is no external reset is a move, and a move keeps both marks. -/
theorem faultsAndRefusalsStick : Obligations.FaultsAndRefusalsStick := by
  intro s t hreset hstep
  obtain ⟨-, ⟨-, rfl⟩ | ⟨e, rest, hsched, ⟨level, rfl, -⟩ | ⟨-, hm⟩⟩⟩ := step_moves hstep
  · exact State.Sticks.of_eq rfl rfl
  · exact absurd (by simp [hsched]) (hreset level)
  · exact hm.sticks

end Sys2Proof.Machine
end

section
/-! The counters stay saturated, `last_err` an error code (spec/10_state.md R41, spec/60_exceptions.md R260), and the
held bytes within their depth (spec/10_state.md R38). -/

namespace Sys2Proof.Machine

/-! ## Counting and raising -/

/-- The invariant reads the configuration, the counters and `last_err` only. -/
theorem State.CountersInv.congr {s t : State} (h : s.CountersInv) (hcfg : t.cfg = s.cfg) (hcnt : t.cnt = s.cnt)
    (herr : t.lastErr = s.lastErr) : t.CountersInv := by
  unfold State.CountersInv at *
  rwa [hcfg, hcnt, herr]

/-- Counters at 0 and no error yet: SESSION_INIT and power-on leave them so. -/
theorem State.CountersInv.of_zero {t : State} (hcnt : t.cnt = Counters.zero) (herr : t.lastErr = 0) :
    t.CountersInv := by
  refine ⟨fun id => ?_, .inl herr⟩
  rw [hcnt]
  cases id <;> exact Nat.zero_le _

/-- Counting saturates. -/
theorem State.CountersInv.countBy {s : State} (h : s.CountersInv) (id : CounterId) (k : Nat) :
    (s.countBy id k).CountersInv := by
  refine ⟨fun id' => ?_, h.2⟩
  rw [State.countBy_cnt]
  by_cases hid : id' = id
  · rw [hid, Counters.get_set_same]
    exact satAdd_le _ _ _
  · rw [Counters.get_set_other _ _ hid]
    exact h.1 id'

/-- An event counts, and leaves its code in `last_err` unless it is a note. -/
theorem State.CountersInv.raiseBy {s : State} (h : s.CountersInv) (e : ErrorEvent) (k : Nat) :
    (s.raiseBy e k).CountersInv := by
  refine ⟨(h.countBy e.counter k).1, ?_⟩
  rw [State.raiseBy_lastErr]
  cases hnote : e.isNote
  · exact .inr ⟨e, hnote, rfl⟩
  · exact h.2

theorem State.CountersInv.raise {s : State} (h : s.CountersInv) (e : ErrorEvent) : (s.raise e).CountersInv :=
  h.raiseBy e 1

/-! ## What each operation does to the counters -/

theorem State.CountersInv.pushByte {s : State} (h : s.CountersInv) (b : Byte) : (s.pushByte b).CountersInv := by
  unfold State.pushByte
  split
  · exact h.raise _
  · exact h.congr rfl rfl rfl

theorem State.CountersInv.holdByte {s : State} (h : s.CountersInv) (b : Byte) : (s.holdByte b).CountersInv := by
  unfold State.holdByte
  split
  · exact h.congr rfl rfl rfl
  · exact h.raise _

theorem State.CountersInv.pushLine {s : State} (h : s.CountersInv) (line : List Byte) :
    (s.pushLine line).CountersInv := by
  unfold State.pushLine
  split
  · exact h.raise _
  · exact (h.countBy .lines 1).congr rfl rfl rfl

theorem State.CountersInv.laByte {s : State} (h : s.CountersInv) (b : Byte) : (s.laByte b).CountersInv := by
  unfold State.laByte
  split
  · exact h.congr rfl rfl rfl
  · unfold State.laOverflow
    split
    · exact h
    · exact (h.raise .lineOverflow).congr rfl rfl rfl
  · exact State.CountersInv.pushLine (s := { s with la := { s.la with buf := [] } }) (h.congr rfl rfl rfl) _
  · unfold State.laEolNoise
    split
    · exact h.congr rfl rfl rfl
    · exact (h.raise .lineNoise).congr rfl rfl rfl

/-- SC_ISSUE counts the command it sends. -/
theorem State.CountersInv.scIssue {s : State} (h : s.CountersInv) (op : StorageOp) (addr : Addr) (data : Phrase)
    (ret : WaitRet) : (s.scIssue op addr data ret).CountersInv := by
  unfold State.scIssue
  split
  · exact State.CountersInv.countBy (h.congr rfl rfl rfl) _ 1
  · exact h.congr rfl rfl rfl

theorem State.CountersInv.issueProgram8 {s : State} (h : s.CountersInv) (base : Addr) (data : Phrase)
    (ret : WaitRet) : (s.issueProgram8 base data ret).CountersInv := by
  unfold State.issueProgram8
  split
  · exact h.scIssue _ _ _ _
  · exact h.raise _

theorem State.CountersInv.stash {s : State} (h : s.CountersInv) : s.stash.CountersInv := by
  unfold State.stash
  split
  · exact (h.raise .mergeLost).congr rfl rfl rfl
  · exact h.congr rfl rfl rfl

theorem State.CountersInv.useMerge {s : State} (h : s.CountersInv) : s.useMerge.CountersInv := by
  unfold State.useMerge
  split
  · exact (h.raise .mergeLost).congr rfl rfl rfl
  · exact h.congr rfl rfl rfl

theorem State.CountersInv.endTransfer {s : State} (h : s.CountersInv) : s.endTransfer.CountersInv := by
  have hreset : s.endReset.CountersInv := h.congr rfl rfl rfl
  have announce : ∀ {u : State}, u.CountersInv → u.announceEnd.CountersInv := fun hu =>
    hu.congr (by simp) (by simp) (by simp)
  unfold State.endTransfer
  split
  · exact announce (hreset.issueProgram8 _ _ _)
  · exact announce hreset

theorem State.CountersInv.routeRecord {s : State} (h : s.CountersInv) (r : Record) :
    (s.routeRecord r).CountersInv := by
  rcases s.routeRecord_cases r with ⟨e, -, heq⟩ | heq | heq <;> rw [heq]
  · exact h.raise e
  · unfold State.takeData
    split
    · exact h.countBy .dataRec 1
    · exact (h.countBy .dataRec 1).congr rfl rfl rfl
  · exact (h.countBy .endRec 1).endTransfer

/-- A completion counts only the failure it notes. -/
theorem State.CountersInv.completeCommand {s : State} (h : s.CountersInv) (st : Status) :
    (s.completeCommand st).CountersInv := by
  have hcommand : { s.commandEffect st with sc := { s.sc with busy := false } }.CountersInv :=
    h.congr (by simp) (by simp) (by simp)
  have hnote : ({ s.commandEffect st with sc := { s.sc with busy := false } }.noteStatus st).CountersInv := by
    cases st
    · exact hcommand
    · exact (hcommand.raise .storageFail).congr rfl rfl rfl
  exact hnote.congr (by simp [State.completeCommand]) (by simp [State.completeCommand])
    (by simp [State.completeCommand])

theorem State.CountersInv.eraseNext {s : State} (h : s.CountersInv) : s.eraseNext.CountersInv := by
  unfold State.eraseNext
  split
  · exact h.scIssue _ _ _ _
  · exact h.congr rfl rfl rfl

/-- Every move keeps the counters saturated and `last_err` an error code. -/
theorem State.CountersInv.move {s t : State} (h : s.CountersInv) (hm : Move s t) : t.CountersInv := by
  cases hm
  case push b _ _ _ => exact h.pushByte b
  case hold b => exact h.holdByte b
  case release _ => exact State.CountersInv.pushByte (s := { s with rxHold := s.rxHold.tail }) (h.congr rfl rfl rfl) _
  case pop _ => exact State.CountersInv.laByte (s := s.takeByte) (h.congr rfl rfl rfl) _
  case line _ => exact State.CountersInv.routeRecord (s := { s with rq := s.rq.tail }) (h.congr rfl rfl rfl) _
  case caseA _ => exact h.stash
  case caseB _ => exact h.useMerge.issueProgram8 _ _ _
  case caseC _ => exact State.CountersInv.issueProgram8 (s := s.advance 8) (h.congr rfl rfl rfl) _ _ _
  case skip _ => exact (h.raiseBy .unhandledAlignment s.we.data.length).congr rfl rfl rfl
  case complete st _ => exact h.completeCommand st
  case eraseNext _ => exact h.eraseNext
  case session _ => exact State.CountersInv.of_zero rfl rfl
  case hostSession _ => exact State.CountersInv.of_zero rfl rfl
  all_goals exact h.congr (by simp) (by simp) (by simp)

/-! ## The held bytes -/

theorem State.HoldInv.congr {s t : State} (h : s.HoldInv) (hcfg : t.cfg = s.cfg) (hhold : t.rxHold = s.rxHold) :
    t.HoldInv := by
  unfold State.HoldInv at *
  rwa [hcfg, hhold]

/-- RX_HOLD keeps a byte only where there is room. -/
theorem State.HoldInv.holdByte {s : State} (h : s.HoldInv) (b : Byte) : (s.holdByte b).HoldInv := by
  by_cases hroom : s.rxHold.length < s.cfg.rxHoldDepth
  · rw [s.holdByte_room b hroom]
    simpa [State.HoldInv] using hroom
  · rw [s.holdByte_full b (Nat.le_of_not_lt hroom)]
    exact h.congr rfl rfl

/-- RX_RELEASE takes one byte away. -/
theorem State.HoldInv.dropHeld {s : State} (h : s.HoldInv) : { s with rxHold := s.rxHold.tail }.HoldInv := by
  unfold State.HoldInv at *
  simpa using (Nat.sub_le _ 1).trans h

/-- Every move keeps the held bytes within their depth. -/
theorem State.HoldInv.move {s t : State} (h : s.HoldInv) (hm : Move s t) : t.HoldInv := by
  cases hm
  case hold b => exact h.holdByte b
  case release _ => exact h.dropHeld.congr (by simp) (by simp)
  all_goals exact h.congr (by simp) (by simp)

/-- Settles O43, from what each move does to the counters and to the held bytes. -/
theorem countersAndHoldStayBounded : Obligations.CountersAndHoldStayBounded := by
  intro s t hstep
  refine ⟨fun h => ?_, fun h => ?_⟩
  · refine step_keeps (P := State.CountersInv) (fun s rest h => h.congr rfl rfl rfl) ?_ (fun s t _ h hm => h.move hm)
      h hstep
    intro s _ level _
    exact State.CountersInv.of_zero rfl rfl
  · refine step_keeps (P := State.HoldInv) (fun s rest h => h.congr rfl rfl) ?_ (fun s t _ h hm => h.move hm) h hstep
    intro s _ level _
    exact Nat.zero_le _

end Sys2Proof.Machine
end

section
/-! The length of a payload (spec/10_state.md R32, spec/30_encoding.md R99). -/

namespace Sys2Proof.Machine

theorem two_le_addrWidth {k : Kind} (h : k ≠ .other) : 2 ≤ addrWidth k := by
  cases k <;> simp [addrWidth] at h ⊢

/-- The payload is what the count leaves after the address and the checksum. -/
theorem fieldsRecord_payload_length (k : Kind) (count : Byte) (bs : List Byte) :
    (fieldsRecord k count bs).payload.length ≤ count.toNat - 1 - addrWidth k := by
  simp only [fieldsRecord, List.length_drop, List.length_take]
  omega

/-- A payload and its address, count byte and checksum fit a count byte, and the text they are read from. -/
theorem parseBody_payload_length (mode : HexErrorMode) {k : Kind} (hk : k ≠ .other) (text : List Byte) :
    (parseBody mode k text).payload.length ≤ 252 ∧ 2 * (parseBody mode k text).payload.length ≤ text.length - 8 := by
  have hwidth := two_le_addrWidth hk
  have hbad : ∀ e, (badRecord k e).payload.length = 0 := fun _ => rfl
  unfold parseBody
  split
  next c0 c1 text =>
    split
    next => simp [hbad]
    next count _ =>
      split
      next => simp [hbad]
      next hcount =>
        split
        next => simp [hbad]
        next bs _ =>
          have hpayload := fieldsRecord_payload_length k count bs
          have hbyte := count.isLt
          simp only [List.length_cons]
          omega
  next => simp [hbad]

/-- Settles O20: the count is a byte, and two characters of the line stand for each byte it counts. -/
theorem payloadLengthIsBounded : Obligations.PayloadLengthIsBounded := by
  intro c line
  by_cases hk : lineKind c line = .other
  · simp [parseLine, hk, otherRecord]
  · have hparse : parseLine c line = parseBody c.hexMode (lineKind c line) (line.drop 2) := by
      unfold parseLine
      split
      next h => exact absurd h hk
      next => rfl
    have hbound := parseBody_payload_length c.hexMode hk (line.drop 2)
    rw [List.length_drop, ← hparse] at hbound
    omega

end Sys2Proof.Machine
end

section
/-! The status registers (spec/10_state.md R47), the command registers (spec/30_encoding.md R107) and the HOST's reads
(spec/60_exceptions.md R294). -/

namespace Sys2Proof.Machine

/-! ## STATUS -/

theorem getLsbD_bitAt {k : Nat} (hk : k < 32) (b : Bool) (j : Nat) :
    (bitAt k b).getLsbD j = (decide (j = k) && b) := by
  cases b
  · simp [bitAt]
  · have hbit : (bitAt k true).getLsbD j = (decide (j < 32) && (2 ^ k).testBit j) := BitVec.getLsbD_ofNat 32 _ j
    rw [hbit, Nat.testBit_two_pow]
    by_cases hj : j = k
    · simp [hj, hk]
    · simp [hj, Ne.symm hj]

theorem ConsState.code_lt (c : ConsState) : c.code < 2 ^ 3 := by
  cases c <;> simp [ConsState.code]

theorem ConsState.testBit_code (c : ConsState) {k : Nat} (hk : 3 ≤ k) : c.code.testBit k = false :=
  Nat.testBit_lt_two_pow (c.code_lt.trans_le (Nat.pow_le_pow_right (by omega) hk))

/-- Each bit of STATUS: the flags, and the code of CONS's state from bit 8 on. -/
theorem State.statusWord_getLsbD (s : State) (k : Nat) : s.statusWord.getLsbD k =
    (decide (k = 0) && s.pm.valid || decide (k = 1) && s.sc.busy || decide (k = 2) && s.sc.fail ||
      decide (k = 3) && decide (s.bqCount = 0) || decide (k = 4) && decide (s.bqCount = s.cfg.bqCap) ||
      decide (k = 5) && decide (s.rq.length = 0) || decide (k = 6) && decide (s.rq.length = s.cfg.rqCap) ||
      decide (k = 7) && s.sc.ramReady || decide (8 ≤ k) && s.cons.state.code.testBit (k - 8) ||
      decide (k = 11) && s.faultNoRam) := by
  have hfield : (BitVec.ofNat 32 s.cons.state.code <<< 8).getLsbD k =
      (decide (8 ≤ k) && s.cons.state.code.testBit (k - 8)) := by
    rw [BitVec.getLsbD_shiftLeft, BitVec.getLsbD_ofNat]
    by_cases hk : k < 32
    · by_cases h8 : 8 ≤ k
      · simp [hk, h8, Nat.not_lt.2 h8, show k - 8 < 32 by omega]
      · simp [h8, Nat.lt_of_not_le h8]
    · simp [hk, s.cons.state.testBit_code (show 3 ≤ k - 8 by omega)]
  simp [State.statusWord, hfield, getLsbD_bitAt]

/-- CONS_STATE is the code of CONS's state. -/
theorem State.statusWord_consState (s : State) : s.statusWord.toNat / 2 ^ 8 % 2 ^ 3 = s.cons.state.code := by
  refine Nat.eq_of_testBit_eq fun k => ?_
  rw [Nat.testBit_mod_two_pow, Nat.testBit_div_two_pow, BitVec.testBit_toNat, s.statusWord_getLsbD]
  by_cases hk : k < 3
  · simp [hk, show k + 8 ≠ 11 by omega]
  · simp [hk, s.cons.state.testBit_code (Nat.le_of_not_lt hk)]

theorem State.statusWord_bits (s : State) :
    s.statusWord.getLsbD 0 = s.pm.valid ∧ s.statusWord.getLsbD 1 = s.sc.busy ∧ s.statusWord.getLsbD 2 = s.sc.fail ∧
    s.statusWord.getLsbD 3 = decide (s.bqCount = 0) ∧ s.statusWord.getLsbD 4 = decide (s.bqCount = s.cfg.bqCap) ∧
    s.statusWord.getLsbD 5 = decide (s.rq.length = 0) ∧ s.statusWord.getLsbD 6 = decide (s.rq.length = s.cfg.rqCap) ∧
    s.statusWord.getLsbD 7 = s.sc.ramReady ∧ s.statusWord.getLsbD 11 = s.faultNoRam := by
  simp only [State.statusWord_getLsbD]
  simp [s.cons.state.testBit_code]

theorem State.statusWord_reserved (s : State) {k : Nat} (hk : 12 ≤ k) : s.statusWord.getLsbD k = false := by
  rw [s.statusWord_getLsbD]
  simp [s.cons.state.testBit_code (show 3 ≤ k - 8 by omega)]
  omega

/-! ## The other registers -/

/-- An index outside the table reads 0. -/
theorem State.csr_unmapped (s : State) {i : Byte} (hi : 0x0A ≤ i.toNat ∧ i.toNat ≤ 0x0F ∨ 0x22 ≤ i.toNat) :
    s.csr i = 0 := by
  unfold State.csr
  split
  case h_29 => rfl
  all_goals omega

/-- At power-on every register but STATUS and the two region registers reads 0. -/
theorem csr_powerOn_zero {c : Config} (hcap : 1 ≤ c.bqCap) (level : Bool) (m : Memory) (d : Nat) (sched : List Event)
    {i : Byte} (h0 : i.toNat ≠ 0x00) (h8 : i.toNat ≠ 0x08) (h9 : i.toNat ≠ 0x09) :
    (State.powerOn c level m d sched).csr i = 0 := by
  have hcount : (State.powerOn c level m d sched).bqCount = 0 := occupancy_self hcap 0
  unfold State.csr
  split
  case h_1 hi => exact absurd hi h0
  case h_2 => rw [hcount]; rfl
  case h_9 hi => exact absurd hi h8
  case h_10 hi => exact absurd hi h9
  all_goals rfl

/-- At power-on STATUS shows an empty Byte Queue and an empty Record Queue, both with room. -/
theorem statusWord_powerOn {c : Config} (hcap : 1 ≤ c.bqCap) (hrq : 1 ≤ c.rqCap) (level : Bool) (m : Memory) (d : Nat)
    (sched : List Event) : (State.powerOn c level m d sched).statusWord = 0x28 := by
  have hcount : (State.powerOn c level m d sched).bqCount = 0 := occupancy_self hcap 0
  have hroom : decide ((State.powerOn c level m d sched).bqCount = (State.powerOn c level m d sched).cfg.bqCap) = false :=
    decide_eq_false (by rw [hcount]; exact (Nat.pos_iff_ne_zero.1 hcap).symm)
  have hlines : decide ((State.powerOn c level m d sched).rq.length = (State.powerOn c level m d sched).cfg.rqCap) =
      false :=
    decide_eq_false (Nat.pos_iff_ne_zero.1 hrq).symm
  unfold State.statusWord
  rw [hroom, hlines, hcount]
  change bitAt 0 false ||| bitAt 1 false ||| bitAt 2 false ||| bitAt 3 true ||| bitAt 4 false ||| bitAt 5 true |||
    bitAt 6 false ||| bitAt 7 false ||| (BitVec.ofNat 32 0 <<< 8) ||| bitAt 11 false = 0x28
  decide

/-! ## Byte fields of wide registers -/

theorem toNat_append_eq {m n : Nat} (x : BitVec m) (y : BitVec n) : (x ++ y).toNat = 2 ^ n * x.toNat + y.toNat := by
  rw [BitVec.toNat_append, ← Nat.shiftLeft_add_eq_or_of_lt y.isLt, Nat.shiftLeft_eq, Nat.mul_comm]

theorem halfWord_toNat (h : Half) : (halfWord h).toNat =
    2 ^ 24 * h.b3.toNat + 2 ^ 16 * h.b2.toNat + 2 ^ 8 * h.b1.toNat + h.b0.toNat := by
  unfold halfWord
  simp only [toNat_append_eq]
  omega

/-- Byte `k` of a half lies in bits `8k+7 : 8k` of its register. -/
theorem halfWord_byte (h : Half) {k : Nat} (hk : k < 4) :
    (halfWord h).toNat / 2 ^ (8 * k) % 256 = ([h.b0, h.b1, h.b2, h.b3].getD k 0).toNat := by
  have := h.b0.isLt
  have := h.b1.isLt
  have := h.b2.isLt
  have := h.b3.isLt
  rw [halfWord_toNat]
  interval_cases k <;> simp <;> omega

/-- Byte `k` of a phrase lies in bits `8k+7 : 8k` of the data field (spec/30_encoding.md R107). -/
theorem phraseWord_byte (p : Phrase) {k : Nat} (hk : k < 8) :
    (phraseWord p).toNat / 2 ^ (8 * k) % 256 =
      ([p.lo.b0, p.lo.b1, p.lo.b2, p.lo.b3, p.hi.b0, p.hi.b1, p.hi.b2, p.hi.b3].getD k 0).toNat := by
  have hword : (phraseWord p).toNat = 2 ^ 32 * (halfWord p.hi).toNat + (halfWord p.lo).toNat := toNat_append_eq _ _
  have hlt := (halfWord p.lo).isLt
  by_cases hlow : k < 4
  · have hbyte := halfWord_byte p.lo hlow
    rw [hword]
    interval_cases k <;> simp at hbyte ⊢ <;> omega
  · have hbyte := halfWord_byte p.hi (show k - 4 < 4 by omega)
    rw [hword]
    interval_cases k <;> simp at hbyte hlow ⊢ <;> omega

/-! ## HOST reads -/

/-- What a step does is what the head of the schedule does. -/
theorem step_cons {s : State} (hwf : s.cfg.wf = true) {e : Event} {rest : List Event} (hsched : s.sched = e :: rest) :
    step s = { s with sched := rest }.takeEvent e := by
  simp [step, hwf, hsched]

theorem step_csrRead {s : State} (hwf : s.cfg.wf = true) {i : Byte} {rest : List Event}
    (hsched : s.sched = .csrRead i :: rest) :
    step s = .next { s with sched := rest, reads := s.reads ++ [.csr i (s.csr i)] } := by
  rw [step_cons hwf hsched]
  rfl

theorem step_storRead_free {s : State} (hwf : s.cfg.wf = true) {a : Addr} {rest : List Event}
    (hsched : s.sched = .storRead a :: rest) (hfree : s.sc.busy = false) :
    step s = .next { s with
      sched := rest, reads := s.reads ++ [.stor a ((s.readSource 0).read a.toNat)], draws := s.draws + 1 } := by
  rw [step_cons hwf hsched]
  simp only [State.takeEvent, State.readStor, hfree]
  rfl

theorem step_storRead_busy {s : State} (hwf : s.cfg.wf = true) {a : Addr} {rest : List Event}
    (hsched : s.sched = .storRead a :: rest) (hbusy : s.sc.busy = true) :
    step s = .next { s with sched := rest, refused := some .storageReadBusy } := by
  rw [step_cons hwf hsched]
  simp only [State.takeEvent, State.readStor, hbusy]
  rfl

/-! ## The two statements -/

/-- Settles O58: STATUS, the two region registers, and the rest, which shows zeros. -/
theorem powerOnStatusRegisters : Obligations.PowerOnStatusRegisters := by
  intro c level m d sched i hwf
  simp only [Config.wf, Bool.and_eq_true, decide_eq_true_eq] at hwf
  obtain ⟨⟨⟨⟨⟨-, hcap⟩, hrq⟩, -⟩, -⟩, -⟩ := hwf
  have hne : ∀ {j : Byte}, i ≠ j → i.toNat ≠ j.toNat := fun h he => h (BitVec.eq_of_toNat_eq he)
  split
  next h => rw [h]; exact statusWord_powerOn hcap hrq level m d sched
  next h0 =>
    split
    next h => rw [h]; rfl
    next h8 =>
      split
      next h => rw [h]; rfl
      next h9 => exact csr_powerOn_zero hcap level m d sched (hne h0) (hne h8) (hne h9)

/-- The command registers name the last command. -/
theorem State.commandRegisters_op (s : State) :
    (s.sc.op = .program8 → s.commandRegisters.op = 0 ∧ s.commandRegisters.opcode = s.cfg.scOpcProgram8) ∧
    (s.sc.op = .eraseSector → s.commandRegisters.op = 1 ∧ s.commandRegisters.opcode = s.cfg.scOpcErase) := by
  refine ⟨fun h => ?_, fun h => ?_⟩ <;>
    simp [State.commandRegisters, h, StorageOp.bit, opcodeValue]

/-- CONS_STATE reads the codes of spec/10_state.md R40. -/
theorem State.statusWord_consState_of_mem {s : State} {code : Nat} {c : ConsState}
    (hmem : (code, c) ∈ [(0, ConsState.off), (1, .idle), (2, .we), (3, .wait), (4, .erase), (5, .fault)])
    (hstate : s.cons.state = c) : s.statusWord.toNat / 2 ^ 8 % 2 ^ 3 = code := by
  have hcode : c.code = code := by
    simp only [List.mem_cons, Prod.mk.injEq, List.not_mem_nil, or_false] at hmem
    rcases hmem with ⟨rfl, rfl⟩ | ⟨rfl, rfl⟩ | ⟨rfl, rfl⟩ | ⟨rfl, rfl⟩ | ⟨rfl, rfl⟩ | ⟨rfl, rfl⟩ <;> rfl
  rw [s.statusWord_consState, hstate, hcode]

/-- The PendingMerge's registers show it while it is present, byte by byte, and 0 while it is not. -/
theorem State.csr_merge (s : State) :
    s.csr 0x05 = (if s.pm.valid = true then s.pm.base else 0) ∧
    (s.pm.valid = true → ∀ k < 4, (s.csr 0x06).toNat / 2 ^ (8 * k) % 256 =
      ([s.pm.low4.b0, s.pm.low4.b1, s.pm.low4.b2, s.pm.low4.b3].getD k 0).toNat) ∧
    (s.pm.valid = false → s.csr 0x06 = 0) := by
  have hreg : s.csr 0x06 = if s.pm.valid then halfWord s.pm.low4 else 0 := rfl
  refine ⟨rfl, fun hvalid k hk => ?_, fun habsent => ?_⟩
  · rw [hreg, if_pos hvalid]
    exact halfWord_byte _ hk
  · rw [hreg, if_neg (by simp [habsent])]

/-- Register FAULTS has the one fault in bit 0. -/
theorem State.csr_faults (s : State) : s.csr 0x07 = if s.faultNoRam = true then 1 else 0 := by
  have hreg : s.csr 0x07 = bitAt 0 s.faultNoRam := rfl
  rw [hreg]
  cases s.faultNoRam <;> rfl

/-- Register LAST_ERR shows the code. -/
theorem State.csr_lastErr (s : State) : (s.csr 0x04).toNat = s.lastErr.toNat := by
  have hreg : s.csr 0x04 = s.lastErr.setWidth 32 := rfl
  rw [hreg, BitVec.toNat_setWidth]
  exact Nat.mod_eq_of_lt (s.lastErr.isLt.trans (by decide))

/-- Settles O59: STATUS bit by bit, the table's other registers, the command registers, and the HOST's two reads. -/
theorem registersShowLiveState : Obligations.RegistersShowLiveState := by
  intro s
  obtain ⟨h0, h1, h2, h3, h4, h5, h6, h7, h11⟩ := s.statusWord_bits
  obtain ⟨hbase, hlow, habsent⟩ := s.csr_merge
  refine ⟨⟨h0, h1, h2, h3, h4, h5, h6, h7, fun code c => s.statusWord_consState_of_mem, h11,
      fun k => s.statusWord_reserved⟩,
    ⟨rfl, rfl, rfl, s.csr_lastErr, hbase, hlow, habsent, s.csr_faults, rfl, rfl⟩, ?_, fun i => s.csr_unmapped,
    ⟨s.commandRegisters_op.1, s.commandRegisters_op.2, rfl, fun k => phraseWord_byte s.sc.data⟩, fun rest hwf => ?_⟩
  · exact ⟨rfl, rfl, rfl, rfl, rfl, rfl, rfl, rfl, rfl, rfl, rfl, rfl, rfl, rfl, rfl, rfl, rfl, rfl⟩
  · refine ⟨fun i => step_csrRead hwf, fun a hsched => ⟨fun hfree => ?_, step_storRead_busy hwf hsched⟩⟩
    exact ⟨s.readSource 0, s.readSource_mem 0, step_storRead_free hwf hsched hfree⟩

end Sys2Proof.Machine
end

section
/-! The window (spec/20_memory.md R62, R75; spec/43_write_engine.md R208): a phrase is in it with its base, and no step
changes a byte outside it. While a command is outstanding no byte enters the Byte Queue (spec/20_memory.md R81,
spec/44_storage.md R239). -/

namespace Sys2Proof.Machine

/-! ## The window's bounds -/

/-- The window is a whole number of sectors, begins at one, and ends within the address space (spec/00_scope.md R10). -/
theorem window_of_wf {c : Config} (h : c.wf = true) :
    c.regionStart.toNat % c.sectorSize = 0 ∧ c.regionLen.toNat % c.sectorSize = 0 ∧
    c.regionStart.toNat + c.regionLen.toNat ≤ 2 ^ 32 := by
  simp only [Config.wf, Bool.and_eq_true, decide_eq_true_eq] at h
  obtain ⟨⟨⟨⟨⟨⟨⟨⟨⟨⟨hstart, hlen⟩, -⟩, htop⟩, -⟩, -⟩, -⟩, -⟩, -⟩, -⟩, -⟩ := h
  exact ⟨hstart, hlen, htop⟩

theorem phraseInWindow_iff (c : Config) (base : Addr) : phraseInWindow c base = true ↔
    c.regionStart.toNat ≤ base.toNat ∧ base.toNat + 8 ≤ c.regionStart.toNat + c.regionLen.toNat := by
  simp [phraseInWindow]

/-- Settles O60: the window ends at a multiple of 4096, so from an aligned base below its end a whole phrase fits. -/
theorem phraseIsInTheWindowWithItsBase : Obligations.PhraseIsInTheWindowWithItsBase := by
  intro c base hwf hsector halign
  obtain ⟨hstart, hlen, -⟩ := window_of_wf hwf
  rw [hsector] at hstart hlen
  have hfits : base.toNat < c.regionStart.toNat + c.regionLen.toNat ↔
      base.toNat + 8 ≤ c.regionStart.toNat + c.regionLen.toNat := by omega
  rw [phraseInWindow_iff, hfits]

/-- An address below or above the window. -/
def OutsideWindow (c : Config) (a : Addr) : Prop :=
  a.toNat < c.regionStart.toNat ∨ c.regionStart.toNat + c.regionLen.toNat ≤ a.toNat

/-- An address outside the window is none of `n` addresses that lie within it, even counted modulo 2^32. -/
theorem OutsideWindow.le_offset {c : Config} {a : Addr} (ha : OutsideWindow c a) (hwf : c.wf = true) {b : Addr}
    {n : Nat} (hlo : c.regionStart.toNat ≤ b.toNat)
    (hhi : b.toNat + n ≤ c.regionStart.toNat + c.regionLen.toNat) : n ≤ (a - b).toNat := by
  obtain ⟨-, -, htop⟩ := window_of_wf hwf
  unfold OutsideWindow at ha
  rw [BitVec.toNat_sub]
  omega

/-! ## The target of the outstanding command -/

/-- How many bytes the outstanding command may write (spec/20_memory.md R67, R68). -/
def State.targetLength (s : State) : Nat :=
  match s.sc.op with
  | .program8 => 8
  | .eraseSector => s.cfg.sectorSize

theorem State.targetLength_program8 {s : State} (h : s.sc.op = .program8) : s.targetLength = 8 := by
  simp [State.targetLength, h]

theorem State.targetLength_eraseSector {s : State} (h : s.sc.op = .eraseSector) :
    s.targetLength = s.cfg.sectorSize := by
  simp [State.targetLength, h]

/-- A command the ULFR may send has its whole target in the window. -/
theorem State.CommandOk.target_in_window {s : State} (h : s.CommandOk) :
    s.cfg.regionStart.toNat ≤ s.sc.addr.toNat ∧
    s.sc.addr.toNat + s.targetLength ≤ s.cfg.regionStart.toNat + s.cfg.regionLen.toNat := by
  unfold State.CommandOk at h
  split at h
  next hop => rw [State.targetLength_program8 hop]; exact (phraseInWindow_iff _ _).1 h.2
  next hop => rw [State.targetLength_eraseSector hop]; exact h.2

/-- An address outside the window is none of the outstanding command's target. -/
theorem State.PortInv.target_excludes {s : State} (h : s.PortInv) (hwf : s.cfg.wf = true) (hbusy : s.sc.busy = true)
    {a : Addr} (ha : OutsideWindow s.cfg a) : s.targetLength ≤ (a - s.sc.addr).toNat := by
  obtain ⟨-, hcommand, -⟩ := h
  obtain ⟨hlo, hhi⟩ := (hcommand hbusy).2.target_in_window
  exact ha.le_offset hwf hlo hhi

/-! ## Bytes outside the target -/

@[simp] theorem length_phraseBytes (p : Phrase) : (phraseBytes p).length = 8 := rfl

@[simp] theorem length_drawBytes (k n : Nat) : (drawBytes k n).length = n := by simp [drawBytes]

theorem State.drawStorage_storByte_other (s : State) {a b : Addr} {n : Nat} (h : n ≤ (a - b).toNat) :
    (s.drawStorage b n).storByte a = s.storByte a :=
  Memory.read_writeBytes_other _ _ _ _ (by simpa using h)

theorem State.programEffect_storByte_other (s : State) {a b : Addr} (data : Phrase) (st : Status)
    (h : 8 ≤ (a - b).toNat) : (s.programEffect b data st).storByte a = s.storByte a := by
  unfold State.programEffect
  split
  · exact Memory.read_writeBytes_other _ _ _ _ (by simpa using h)
  · exact s.drawStorage_storByte_other h

theorem State.eraseEffect_storByte_other (s : State) {a b : Addr} (st : Status)
    (h : s.cfg.sectorSize ≤ (a - b).toNat) : (s.eraseEffect b st).storByte a = s.storByte a := by
  cases st with
  | ok =>
    have hout : inRange b s.cfg.sectorSize a.toNat = false := by simpa [inRange] using h
    exact (Memory.read_eraseRange _ _ _ _).trans (by simp [hout, State.storByte])
  | fail => exact s.drawStorage_storByte_other h

/-- A command that completes, with either status, writes its target only. -/
theorem State.arrayEffect_storByte_other {s : State} (st : Status) {a : Addr}
    (h : s.targetLength ≤ (a - s.sc.addr).toNat) : (s.arrayEffect st).storByte a = s.storByte a := by
  unfold State.arrayEffect
  split
  next hop => exact s.programEffect_storByte_other _ st (by rwa [State.targetLength_program8 hop] at h)
  next hop => exact s.eraseEffect_storByte_other st (by rwa [State.targetLength_eraseSector hop] at h)

/-- A command that an external reset interrupts writes its target only. -/
theorem State.interruptStorage_storByte_other {s : State} {a : Addr}
    (h : s.sc.busy = true → s.targetLength ≤ (a - s.sc.addr).toNat) :
    s.interruptStorage.storByte a = s.storByte a := by
  unfold State.interruptStorage
  split
  next hbusy =>
    split
    next hop => exact s.drawStorage_storByte_other (by simpa [State.targetLength_program8 hop] using h hbusy)
    next hop => exact s.drawStorage_storByte_other (by simpa [State.targetLength_eraseSector hop] using h hbusy)
  next => rfl

theorem State.storByte_congr {s t : State} (h : t.stor = s.stor) (a : Addr) : t.storByte a = s.storByte a := by
  rw [State.storByte, State.storByte, h]

/-! ## Every step -/

/-- A move leaves every byte outside the target of the outstanding command. -/
theorem Move.storByte_other {s t : State} (hm : Move s t) {a : Addr}
    (h : s.sc.busy = true → s.targetLength ≤ (a - s.sc.addr).toNat) : t.storByte a = s.storByte a := by
  rcases hm.stor_cases with hstor | ⟨hbusy, st, rfl⟩
  · exact State.storByte_congr hstor a
  · exact (State.storByte_congr (s.completeCommand_stor st) a).trans (State.arrayEffect_storByte_other st (h hbusy))

/-- Settles O45: a step writes at most the outstanding command's target, and the port's invariant has that target in
the window. -/
theorem storageOutsideTheWindowNeverChanges : Obligations.StorageOutsideTheWindowNeverChanges := by
  intro s t hs hstep a ha
  obtain ⟨hwf, ⟨-, rfl⟩ | ⟨e, rest, -, hcases⟩⟩ := step_moves hstep
  · rfl
  have hport : { s with sched := rest }.PortInv := hs.congr rfl rfl rfl rfl
  have hout (hbusy : { s with sched := rest }.sc.busy = true) := hport.target_excludes hwf hbusy ha
  rcases hcases with ⟨level, -, rfl⟩ | ⟨-, hm⟩
  · exact (State.storByte_congr (State.relaunch_stor _ level) a).trans (State.interruptStorage_storByte_other hout)
  · exact hm.storByte_other hout

/-! ## The critical section -/

/-- While a command is outstanding a move stores no byte in the Byte Queue: BQ_PUSH and RX_RELEASE are masked, and
SESSION_INIT waits. -/
theorem Move.queue_writes_masked {s t : State} (hm : Move s t) (hbusy : s.sc.busy = true) :
    t.bq.wr = s.bq.wr ∧ t.bq.mem = s.bq.mem := by
  cases hm
  case push hopen _ => exact absurd hbusy hopen
  case release hopen => exact absurd hbusy hopen
  case session hready => exact absurd (hready.1.symm.trans hbusy) Bool.false_ne_true
  case hostSession hready => exact absurd (hready.1.symm.trans hbusy) Bool.false_ne_true
  all_goals simp

/-- Settles O46: a step that is no external reset is a move. -/
theorem noByteEntersTheQueueWhileMasked : Obligations.NoByteEntersTheQueueWhileMasked := by
  intro s t hbusy hreset hstep
  obtain ⟨-, ⟨-, rfl⟩ | ⟨e, rest, hsched, ⟨level, rfl, -⟩ | ⟨-, hm⟩⟩⟩ := step_moves hstep
  · exact ⟨rfl, rfl⟩
  · exact absurd (by simp [hsched]) (hreset level)
  · exact hm.queue_writes_masked hbusy

end Sys2Proof.Machine
end

section
/-! The decoder and the encoder agree (spec/30_encoding.md R93, R106, R107). -/

namespace Sys2Proof.Machine

/-! ## Operand bytes -/

theorem plainOp_eq_ok_iff {i j : Instr} {code : BitVec 5} {arg : Byte} :
    plainOp j code arg = .ok i ↔ arg = 0 ∧ j = i := by
  unfold plainOp
  split <;> simp_all

/-- The operand byte of BQ_SYNC is its side's (spec/40_byte_queue.md R135). -/
theorem sideOp_eq_ok_iff {f : Side → Instr} {i : Instr} {code : BitVec 5} {arg : Byte} :
    sideOp f code arg = .ok i ↔ ∃ side : Side, arg = side.toByte ∧ f side = i := by
  constructor
  · unfold sideOp
    split
    next h0 => exact fun h => ⟨.readCopy, h0, Except.ok.inj h⟩
    next =>
      split
      next h1 => exact fun h => ⟨.writeCopy, h1, Except.ok.inj h⟩
      next => exact fun h => nomatch h
  · rintro ⟨side, rfl, rfl⟩
    cases side <;> rfl

/-- The operand byte of a completion is its status's (spec/30_encoding.md R107). -/
theorem statusOp_eq_ok_iff {f : Status → Instr} {i : Instr} {code : BitVec 5} {arg : Byte} :
    statusOp f code arg = .ok i ↔ ∃ st : Status, arg = st.toByte ∧ f st = i := by
  constructor
  · unfold statusOp
    split
    next h0 => exact fun h => ⟨.ok, h0, Except.ok.inj h⟩
    next =>
      split
      next h1 => exact fun h => ⟨.fail, h1, Except.ok.inj h⟩
      next => exact fun h => nomatch h
  · rintro ⟨st, rfl, rfl⟩
    cases st <;> rfl

/-! ## Trace steps -/

/-- A trace step is known by the number of its code. -/
theorem op_eq_of_code_toNat {code : BitVec 5} {n : Nat} (h : code.toNat = n) (arg : Byte) :
    Fetched.op (BitVec.ofNat 5 n) arg = .op code arg := by
  rw [← h, BitVec.ofNat_toNat, BitVec.setWidth_eq]

/-- The decoder's table of spec/30_encoding.md R106 is the encoder's, read backwards: the branches of `decodeOp` with a
byte operand, a side, a status, the unused codes, and then those without an operand. -/
theorem decode_op_eq_ok_iff {c : Config} {code : BitVec 5} {arg : Byte} {i : Instr} :
    decode c (.op code arg) = .ok i ↔ encode c i = .op code arg := by
  constructor
  · intro h
    simp only [decode] at h
    unfold decodeOp at h
    split at h
    case h_1 hcode | h_2 hcode =>
      cases h
      exact op_eq_of_code_toNat hcode _
    case h_4 hcode =>
      obtain ⟨side, rfl, rfl⟩ := sideOp_eq_ok_iff.1 h
      exact op_eq_of_code_toNat hcode _
    case h_20 hcode | h_21 hcode | h_22 hcode =>
      obtain ⟨st, rfl, rfl⟩ := statusOp_eq_ok_iff.1 h
      exact op_eq_of_code_toNat hcode _
    case h_28 => cases h
    all_goals
      rename_i hcode
      obtain ⟨rfl, rfl⟩ := plainOp_eq_ok_iff.1 h
      exact op_eq_of_code_toNat hcode _
  · intro h
    cases i
    case bqSync side => cases h; cases side <;> rfl
    case scProgram8 st | scEraseSector st | scDone st => cases h; cases st <;> rfl
    all_goals cases h
    all_goals rfl

/-- The codes that name no operation (spec/30_encoding.md R106). -/
theorem decode_op_unused (c : Config) {code : BitVec 5} (arg : Byte) (h : code ∈ [0x00, 0x06, 0x07, 0x0F, 0x17]) :
    decode c (.op code arg) = .error (.unusedCode code) := by
  simp only [List.mem_cons, List.not_mem_nil, or_false] at h
  rcases h with rfl | rfl | rfl | rfl | rfl <;> rfl

/-! ## Record lines -/

@[simp] theorem lineKind_marker (c : Config) (d : Byte) (t : List Byte) :
    lineKind c (c.marker :: d :: t) = c.kindOf d :=
  if_pos rfl

/-- A line that begins with another byte is of no record kind. -/
theorem lineKind_of_ne_marker {c : Config} {m : Byte} (h : m ≠ c.marker) (d : Byte) (t : List Byte) :
    lineKind c (m :: d :: t) = .other :=
  if_neg h

theorem lineKind_of_otherLine {c : Config} {line : List Byte} (h : otherLine c line = true) :
    lineKind c line = .other := by
  rcases line with _ | ⟨m, _ | ⟨d, t⟩⟩
  · rfl
  · rfl
  · by_cases hm : m = c.marker
    · subst hm
      have hd : d ∉ c.kinds.toList := by simpa [otherLine] using h
      rw [lineKind_marker, kindOf_other hd]
    · exact lineKind_of_ne_marker hm d t

/-- No two lines mean one record row (spec/30_encoding.md R93). -/
theorem encode_decodeLine (c : Config) (line : List Byte) : encode c (decodeLine c line) = .line line := by
  rcases line with _ | ⟨m, _ | ⟨d, t⟩⟩
  · rfl
  · rfl
  · by_cases hm : m = c.marker
    · subst hm
      rcases kindOf_cases c d with ⟨rfl, hk⟩ | ⟨rfl, hk⟩ | ⟨rfl, hk⟩ | ⟨rfl, hk⟩ | ⟨rfl, hk⟩ | ⟨rfl, hk⟩ | ⟨-, hk⟩ <;>
        simp [decodeLine, hk, encode]
    · simp [decodeLine, lineKind_of_ne_marker hm, encode]

/-- A record row's line decodes to the row: its kind digit selects its own kind, and a line of REC_OTHER selects none. -/
theorem decodeLine_of_encode {c : Config} {i : Instr} {line : List Byte} (hc : c.wf = true) (hi : i.wf c = true)
    (h : encode c i = .line line) : decodeLine c line = i := by
  obtain ⟨h16, h24, h32, e32, e24, e16⟩ := kindOf_digits hc
  cases i <;> cases h
  case recOther =>
    have hother : otherLine c line = true := (Bool.and_eq_true_iff.1 hi).2
    simp [decodeLine, lineKind_of_otherLine hother]
  all_goals simp [decodeLine, h16, h24, h32, e32, e24, e16]

/-! ## The two round trips -/

/-- Settles O1: a trace step by the table, a line by its kind. -/
theorem decodeOfEncodeIsTheInstruction : Obligations.DecodeOfEncodeIsTheInstruction := by
  intro c i hc hi
  cases h : encode c i with
  | op code arg => exact decode_op_eq_ok_iff.2 h
  | line line => exact congrArg Except.ok (decodeLine_of_encode hc hi h)

/-- Settles O2: a trace step by the table, a line by its kind. -/
theorem encodeOfDecodeIsTheWord : Obligations.EncodeOfDecodeIsTheWord := by
  intro c f i h
  cases f with
  | op code arg => exact decode_op_eq_ok_iff.1 h
  | line line =>
    rw [← Except.ok.inj h]
    exact encode_decodeLine c line

end Sys2Proof.Machine
end

section
/-! A step runs what it fetches (spec/30_encoding.md R106, spec/41_line_assembler.md R158, spec/40_byte_queue.md R130,
R132), and refuses an unused code (spec/00_scope.md R13). -/

namespace Sys2Proof.Machine

theorem State.runFetched_ok {s : State} {f : Fetched} {i : Instr} (h : decode s.cfg f = .ok i) :
    s.runFetched f = exec i s := by
  rw [State.runFetched, h]

theorem State.runFetched_error {s : State} {f : Fetched} {r : Reject} (h : decode s.cfg f = .error r) :
    s.runFetched f = .next (s.refuse (rejectReason r)) := by
  rw [State.runFetched, h]

/-- CONS fetches the line at the head of the Record Queue. -/
theorem State.takeEvent_record {s : State} {line : List Byte} {lines : List (List Byte)} (h : s.rq = line :: lines) :
    s.takeEvent .record = s.runFetched (.line line) := by
  simp [State.takeEvent, State.headLine, h]

/-- Settles O3: each code is its operation's in the encoder's table, and a rejected word sets the mark. -/
theorem operationCodesAreThoseOfTheTable : Obligations.OperationCodesAreThoseOfTheTable := by
  constructor
  · intro c b
    and_intros <;> exact decode_op_eq_ok_iff.2 rfl
  · intro s rest code arg hwf hsched hcode
    rw [step_cons hwf hsched]
    exact State.runFetched_error (s := { s with sched := rest }) (decode_op_unused s.cfg arg hcode)

/-- Settles O4: `step` consumes the schedule's head and runs what it decodes to. -/
theorem stepRunsTheDecodedInstruction : Obligations.StepRunsTheDecodedInstruction := by
  intro s rest hwf
  refine ⟨?_, ?_, ?_⟩
  · intro code arg i hsched hdecode
    rw [step_cons hwf hsched]
    exact State.runFetched_ok hdecode
  · intro line lines i hsched hrq hdecode
    rw [step_cons hwf hsched, State.takeEvent_record (s := { s with sched := rest }) hrq]
    exact State.runFetched_ok hdecode
  · intro b hsched
    rw [step_cons hwf hsched]
    rfl

end Sys2Proof.Machine
end

section
/-! The parser reads back a record's text (spec/30_encoding.md R91 to R98, R104; spec/42_record_parser.md R170, R172 to
R175). -/

namespace Sys2Proof.Machine

/-- A line of a record kind is parsed from its third byte on. -/
theorem parseLine_of_kind {c : Config} {line : List Byte} (h : lineKind c line ≠ .other) :
    parseLine c line = parseBody c.hexMode (lineKind c line) (line.drop 2) := by
  unfold parseLine
  split
  next hother => exact absurd hother h
  next => rfl

/-- The model's checksum test is the relation of spec/30_encoding.md R98 where the count byte counts what follows it. -/
theorem checksumHolds_iff {count : Byte} {addr payload : List Byte} (cks : Byte)
    (hcount : count.toNat = addr.length + payload.length + 1) :
    checksumHolds count addr payload cks = true ↔ ChecksumRelation addr payload cks := by
  simp [checksumHolds, ChecksumRelation, hcount]

/-- The decoded bytes fall into address, payload and checksum by the address width and the count. -/
theorem fieldsRecord_append {k : Kind} {count : Byte} {addr payload : List Byte} (cks : Byte)
    (haddr : addr.length = addrWidth k) (hcount : count.toNat = addr.length + payload.length + 1) :
    fieldsRecord k count (addr ++ payload ++ [cks]) =
      { kind := k, address := BitVec.ofNat 32 (bigEndian addr), payload := payload, checksum := cks
        valid := checksumHolds count addr payload cks, err := .none } := by
  have hbody : count.toNat - 1 = (addr ++ payload).length := by simp [hcount]
  have htake : (addr ++ payload ++ [cks]).take (addrWidth k) = addr := by
    rw [List.append_assoc, List.take_left' haddr]
  have hpayload : ((addr ++ payload ++ [cks]).take (count.toNat - 1)).drop (addrWidth k) = payload := by
    rw [List.take_left' hbody.symm, List.drop_left' haddr]
  have hcks : (addr ++ payload ++ [cks]).getD (count.toNat - 1) 0 = cks := by simp [hbody]
  simp only [fieldsRecord, htake, hpayload, hcks]

/-- A record's text passes every check of spec/42_record_parser.md R186, whatever follows it. -/
theorem parseBody_recordText (mode : HexErrorMode) {k : Kind} {addr payload : List Byte} (cks : Byte)
    (trailing : List Byte) (upper : Nat → Bool) (haddr : addr.length = addrWidth k)
    (hlen : addr.length + payload.length + 1 ≤ 255) :
    parseBody mode k (recordText upper addr payload cks trailing) =
      fieldsRecord k (BitVec.ofNat 8 (addr.length + payload.length + 1)) (addr ++ payload ++ [cks]) := by
  have hcount : (BitVec.ofNat 8 (addr.length + payload.length + 1)).toNat = (addr ++ payload ++ [cks]).length := by
    simp; omega
  have hchecks : ¬ ((addr ++ payload ++ [cks]).length < addrWidth k + 1 ∨
      (hexText (fun j => upper (j + 2)) (addr ++ payload ++ [cks]) ++ trailing).length <
        2 * (addr ++ payload ++ [cks]).length) := by
    simp [hexText_length, haddr]
  simp only [recordText, hexText, List.cons_append, parseBody, hexPair_hexChar]
  rw [hcount, if_neg hchecks, hexBytes_hexText]

/-- Settles O16: the text passes the parser's checks, and its decoded bytes fall into the record's fields. -/
theorem parseReadsBackEveryRecordText : Obligations.ParseReadsBackEveryRecordText := by
  intro c d addr payload cks trailing upper hkind haddr hlen
  have hcount : (BitVec.ofNat 8 (addr.length + payload.length + 1)).toNat = addr.length + payload.length + 1 := by
    rw [BitVec.toNat_ofNat, Nat.mod_eq_of_lt (by omega)]
  refine ⟨_, checksumHolds_iff cks hcount, ?_⟩
  calc parseLine c (c.marker :: d :: recordText upper addr payload cks trailing)
      = parseBody c.hexMode (c.kindOf d) (recordText upper addr payload cks trailing) := by
        rw [parseLine_of_kind (by rwa [lineKind_marker]), lineKind_marker]; rfl
    _ = fieldsRecord (c.kindOf d) _ (addr ++ payload ++ [cks]) :=
        parseBody_recordText c.hexMode cks trailing upper haddr hlen
    _ = _ := by rw [fieldsRecord_append cks haddr hcount, bigEndian_eq_sum]; rfl

end Sys2Proof.Machine
end

section
/-! The Byte Queue's operations: BQ_PUSH, RX_HOLD, RX_RELEASE, BQ_SYNC (spec/40_byte_queue.md R130, R132, R135, R136),
and what each does to the queue's contents, so that every step changes them only at their ends (R137,
spec/20_memory.md R76). -/

namespace Sys2Proof.Machine

/-! ## The operations where they are enabled -/

theorem exec_bqPush {s : State} (armed : s.rxArmed) (unmasked : ¬ s.rxMasked) (first : s.rxHold = []) (b : Byte) :
    exec (.bqPush b) s = .next (s.pushByte b) :=
  attempt_of ⟨armed, unmasked, first⟩ _ _

theorem exec_rxHold {s : State} (armed : s.rxArmed) (wait : s.rxMasked ∨ s.rxHold ≠ []) (b : Byte) :
    exec (.rxHold b) s = .next (s.holdByte b) :=
  attempt_of ⟨armed, wait⟩ _ _

theorem exec_rxRelease {s : State} (running : s.running) (unmasked : ¬ s.rxMasked) {b : Byte} {rest : List Byte}
    (held : s.rxHold = b :: rest) : exec .rxRelease s = .next ({ s with rxHold := rest }.pushByte b) := by
  have hexec : exec .rxRelease s = .next ({ s with rxHold := s.rxHold.tail }.pushByte (s.rxHold.headD 0)) :=
    attempt_of ⟨running, unmasked, by simp [held]⟩ _ _
  simpa [held] using hexec

theorem exec_bqPop {s : State} (path : s.bytePath) : exec .bqPop s = .next (s.takeByte.laByte s.headByte) :=
  attempt_of path _ _

/-! ## The contents under each operation -/

/-- The contents read the capacity, the slots and the two indices only. -/
theorem State.queueBytes_congr {s t : State} (hcfg : t.cfg = s.cfg) (hmem : t.bq.mem = s.bq.mem)
    (hwr : t.bq.wr = s.bq.wr) (hrd : t.bq.rd = s.bq.rd) : t.queueBytes = s.queueBytes := by
  unfold State.queueBytes State.bqCount
  rw [hcfg, hmem, hwr, hrd]

/-- A queue whose indices meet holds nothing. -/
theorem State.queueBytes_of_met {s : State} (hcap : 1 ≤ s.cfg.bqCap) (hmet : s.bq.wr = s.bq.rd) :
    s.queueBytes = [] := by
  have hcount : s.bqCount = 0 := by rw [State.bqCount, hmet, occupancy_self hcap]
  simp [State.queueBytes, hcount]

/-- Two places of one round of the ring are different slots. -/
theorem slot_ne_of_lt {cap k n : Nat} (rd : Nat) (hk : k < n) (hn : n < cap) : (rd + k) % cap ≠ (rd + n) % cap :=
  fun hslot => hk.ne ((Nat.ModEq.add_left_cancel' rd hslot).eq_of_lt_of_lt (hk.trans hn) hn)

/-- A stored byte becomes the last of the contents: its slot is none of those in use. -/
theorem State.QueueInv.queueBytes_pushByte {s : State} (h : s.QueueInv) (hroom : s.seenByRx ≠ s.cfg.bqCap) (b : Byte) :
    (s.pushByte b).queueBytes = s.queueBytes ++ [b] := by
  obtain ⟨hcap, hlen, -, -, hrx, hle, -⟩ := h
  have hfree : s.bqCount < s.cfg.bqCap := hrx.trans_lt (lt_of_le_of_ne hle hroom)
  have hcount : (s.pushByte b).bqCount = s.bqCount + 1 := by
    rw [s.pushByte_room b hroom]
    exact occupancy_next_wr hcap _ _ (show s.bqCount + 1 < _ by omega)
  have hwr : s.bq.wr % s.cfg.bqCap = (s.bq.rd + s.bqCount) % s.cfg.bqCap := (slot_of_wr hcap _ _).symm
  have hbound : (s.bq.rd + s.bqCount) % s.cfg.bqCap < s.bq.mem.length := by
    rw [hlen]; exact Nat.mod_lt _ hcap
  rw [State.queueBytes, hcount, List.range_succ, List.map_append, List.map_singleton, s.pushByte_room b hroom, hwr]
  congr 1
  · refine List.map_congr_left fun k hk => ?_
    have hne := slot_ne_of_lt s.bq.rd (List.mem_range.1 hk) hfree
    simp [List.getD_eq_getElem?_getD, List.getElem?_set_ne hne.symm]
  · simp [List.getD_eq_getElem?_getD, List.getElem?_set_self hbound]

/-- A dropped byte leaves the contents. -/
theorem State.queueBytes_pushByte_full {s : State} (hfull : s.seenByRx = s.cfg.bqCap) (b : Byte) :
    (s.pushByte b).queueBytes = s.queueBytes := by
  rw [s.pushByte_full b hfull]
  exact State.queueBytes_congr rfl rfl rfl rfl

/-- The byte taken was the first of the contents. -/
theorem State.QueueInv.queueBytes_takeByte {s : State} (h : s.QueueInv) (hpos : 0 < s.seenByCons) :
    s.queueBytes = s.headByte :: s.takeByte.queueBytes := by
  obtain ⟨hcap, -, -, -, -, -, hcons⟩ := h
  have hcount : s.bqCount = s.takeByte.bqCount + 1 := by
    have hnext : s.takeByte.bqCount = s.bqCount - 1 := occupancy_next_rd hcap _ _ (hpos.trans_le hcons)
    omega
  have hslot (k : Nat) : (s.bq.rd + (k + 1)) % s.cfg.bqCap =
      (nextIndex s.cfg.bqCap s.bq.rd + k) % s.cfg.bqCap := by
    rw [Nat.add_mod (nextIndex _ _), nextIndex_mod, ← Nat.add_mod, Nat.add_right_comm, Nat.add_assoc]
  rw [State.queueBytes, hcount, List.range_succ_eq_map, List.map_cons, List.map_map]
  simp only [Function.comp_def, Nat.succ_eq_add_one, hslot]
  rfl

/-- LA_BYTE runs after the byte has left the queue, and leaves the contents. -/
theorem State.queueBytes_laByte (s : State) (b : Byte) : (s.laByte b).queueBytes = s.queueBytes :=
  State.queueBytes_congr (by simp) (by simp) (by simp) (by simp)

/-- BQ_POP takes the first byte of the contents. -/
theorem State.QueueInv.queueBytes_pop {s : State} (h : s.QueueInv) (path : s.bytePath) :
    s.queueBytes = s.headByte :: (s.takeByte.laByte s.headByte).queueBytes := by
  obtain ⟨-, -, hpos, -⟩ := path
  rw [State.queueBytes_laByte]
  exact h.queueBytes_takeByte hpos

/-! ## Every step -/

/-- The contents change at their ends only: they stay, gain a last byte, lose the first one, or are emptied. -/
def State.QueueEndsChange (s t : State) : Prop :=
  t.queueBytes = s.queueBytes ∨ (∃ b, t.queueBytes = s.queueBytes ++ [b]) ∨
  (∃ b, s.queueBytes = b :: t.queueBytes) ∨ t.queueBytes = []

theorem State.QueueEndsChange.of_same {s t : State} (hcfg : t.cfg = s.cfg) (hmem : t.bq.mem = s.bq.mem)
    (hwr : t.bq.wr = s.bq.wr) (hrd : t.bq.rd = s.bq.rd) : s.QueueEndsChange t :=
  .inl (State.queueBytes_congr hcfg hmem hwr hrd)

theorem State.QueueEndsChange.of_met {s t : State} (hcap : 1 ≤ t.cfg.bqCap) (hmet : t.bq.wr = t.bq.rd) :
    s.QueueEndsChange t :=
  .inr (.inr (.inr (State.queueBytes_of_met hcap hmet)))

/-- BQ_PUSH adds a last byte, or drops it. -/
theorem State.QueueInv.pushByte_endsChange {s : State} (h : s.QueueInv) (b : Byte) :
    s.QueueEndsChange (s.pushByte b) := by
  by_cases hfull : s.seenByRx = s.cfg.bqCap
  · exact .inl (State.queueBytes_pushByte_full hfull b)
  · exact .inr (.inl ⟨b, h.queueBytes_pushByte hfull b⟩)

/-- Every move changes the contents at their ends only. -/
theorem Move.queueEndsChange {s t : State} (hm : Move s t) (h : s.QueueInv) : s.QueueEndsChange t := by
  cases hm
  case push b _ _ _ => exact h.pushByte_endsChange b
  case release _ =>
    exact State.QueueInv.pushByte_endsChange (s := { s with rxHold := s.rxHold.tail }) (h.congr rfl rfl) _
  case pop path => exact .inr (.inr (.inl ⟨s.headByte, h.queueBytes_pop path⟩))
  case session _ => exact .of_met h.1 rfl
  case hostSession host _ => exact .of_met h.1 rfl
  all_goals exact .of_same (by simp) (by simp) (by simp) (by simp)

/-- Settles O11: a relaunch empties the queue, and any other step is a move. -/
theorem byteQueueChangesOnlyAtItsEnds : Obligations.ByteQueueChangesOnlyAtItsEnds := by
  intro s t hs hstep
  obtain ⟨-, ⟨-, rfl⟩ | ⟨e, rest, -, ⟨level, -, rfl⟩ | ⟨-, hm⟩⟩⟩ := step_moves hstep
  · exact .inl rfl
  · exact State.QueueEndsChange.of_met (s := s) hs.1 rfl
  · exact hm.queueEndsChange (hs.congr rfl rfl)

/-- Settles O6: BQ_PUSH stores behind the contents, BQ_POP takes their first byte. -/
theorem byteQueueIsFirstInFirstOut : Obligations.ByteQueueIsFirstInFirstOut := by
  intro s hs
  refine ⟨fun b hinit happ hfree hfirst hroom => ?_, fun path => ?_⟩
  · exact ⟨_, exec_bqPush ⟨hinit, happ⟩ (by simp [hfree]) hfirst b, hs.queueBytes_pushByte hroom b⟩
  · exact ⟨_, exec_bqPop path, hs.queueBytes_pop path⟩

/-! ## The receive side, with the whole next state -/

/-- Settles O5: the two cases of BQ_PUSH's full test. -/
theorem bqPushStoresOrDropsTheByte : Obligations.BqPushStoresOrDropsTheByte := by
  intro s b hinit happ hfree hfirst
  rw [exec_bqPush ⟨hinit, happ⟩ (by simp [hfree]) hfirst b]
  refine ⟨fun hfull => ?_, fun hroom => ?_⟩
  · rw [s.pushByte_full b hfull, State.raise_bqFull]; rfl
  · rw [s.pushByte_room b hroom]; rfl

/-- Settles O7: the two cases of RX_HOLD's room test. -/
theorem rxHoldKeepsOrLosesTheByte : Obligations.RxHoldKeepsOrLosesTheByte := by
  intro s b hinit happ hwait
  rw [exec_rxHold ⟨hinit, happ⟩ hwait b]
  refine ⟨fun hroom => ?_, fun hfull => ?_⟩
  · rw [s.holdByte_room b hroom]
  · rw [s.holdByte_full b hfull, State.raise_rxLost]; rfl

/-- Settles O8: BQ_PUSH's full test once the byte has left `rx_hold`. -/
theorem rxReleasePushesTheOldestHeldByte : Obligations.RxReleasePushesTheOldestHeldByte := by
  intro s b rest happ hfree hheld
  rw [exec_rxRelease happ (by simp [hfree]) hheld]
  refine ⟨fun hfull => ?_, fun hroom => ?_⟩
  · rw [State.pushByte_full _ b (by exact hfull), State.raise_bqFull]; rfl
  · rw [State.pushByte_room _ b (by exact hroom)]; rfl

/-- Settles O9: the step is enabled for either side. -/
theorem bqSyncRefreshesOneCopy : Obligations.BqSyncRefreshesOneCopy := by
  intro s happ hstale hold
  exact ⟨attempt_of ⟨happ, hstale, hold⟩ _ _, attempt_of ⟨happ, hstale, hold⟩ _ _⟩

end Sys2Proof.Machine
end

section
/-! What LA_BYTE does with a byte, case by case with the whole next state (spec/41_line_assembler.md R150 to R154, R157),
and with it BQ_POP (spec/40_byte_queue.md R133). -/

namespace Sys2Proof.Machine

/-! ## Which operation a byte selects -/

theorem lineOp_append {c : Config} {la : LineAssembler} {b : Byte} (hb : b ≠ c.newline) (hskip : la.skip = false)
    (hroom : la.buf.length ≠ c.lineMax) : lineOp c la b = .append := by
  simp [lineOp, hb, hskip, hroom]

theorem lineOp_overflow {c : Config} {la : LineAssembler} {b : Byte} (hb : b ≠ c.newline)
    (hover : la.skip = true ∨ la.buf.length = c.lineMax) : lineOp c la b = .overflow := by
  simp [lineOp, hb, hover]

theorem lineOp_eolEmit {c : Config} {la : LineAssembler} {b : Byte} (hb : b = c.newline) (hskip : la.skip = false)
    (hmarker : la.buf.head? = some c.marker) : lineOp c la b = .eolEmit := by
  simp [lineOp, looksLikeRecord, hb, hskip, hmarker]

theorem lineOp_eolNoise {c : Config} {la : LineAssembler} {b : Byte} (hb : b = c.newline)
    (hnoise : la.skip = true ∨ la.buf.head? ≠ some c.marker) : lineOp c la b = .eolNoise := by
  rcases hnoise with hskip | hmarker
  · simp [lineOp, hb, hskip]
  · simp [lineOp, looksLikeRecord, hb, hmarker]

/-! ## What the operation leaves -/

section
variable {s : State} {b : Byte}

/-- LA_APPEND (R151). -/
theorem State.laByte_of_room (hb : b ≠ s.cfg.newline) (hskip : s.la.skip = false)
    (hroom : s.la.buf.length ≠ s.cfg.lineMax) :
    s.laByte b = { s with la := { buf := s.la.buf ++ [b], skip := false } } := by
  rw [s.laByte_append b (lineOp_append hb hskip hroom)]
  simp only [State.laAppend, hskip]

/-- LA_OVERFLOW within a skip discards the byte (R152). -/
theorem State.laByte_of_skip (hb : b ≠ s.cfg.newline) (hskip : s.la.skip = true) : s.laByte b = s := by
  rw [s.laByte_overflow b (lineOp_overflow hb (.inl hskip)), State.laOverflow, if_pos hskip]

/-- LA_OVERFLOW at the first byte past `LINE_MAX` (R152). -/
theorem State.laByte_of_full (hb : b ≠ s.cfg.newline) (hskip : s.la.skip = false)
    (hfull : s.la.buf.length = s.cfg.lineMax) :
    s.laByte b = { s with
      la := { buf := [], skip := decide (s.cfg.overflowMode = OverflowMode.discardToNewline) }
      cnt := { s.cnt with lineOverflow := satInc s.cfg s.cnt.lineOverflow }, lastErr := 2 } := by
  rw [s.laByte_overflow b (lineOp_overflow hb (.inr hfull)), State.laOverflow, if_neg (by simp [hskip]),
    State.raise_lineOverflow]
  rfl

/-- LA_EOL_EMIT hands the line to RQ_PUSH (R153). -/
theorem State.laByte_of_record (hb : b = s.cfg.newline) (hskip : s.la.skip = false)
    (hmarker : s.la.buf.head? = some s.cfg.marker) :
    s.laByte b = { s with la := { buf := [], skip := false } }.pushLine s.la.buf := by
  rw [s.laByte_eolEmit b (lineOp_eolEmit hb hskip hmarker)]
  simp only [State.laEolEmit, hskip]

/-- RQ_PUSH with room (R157). -/
theorem State.laByte_of_record_room (hb : b = s.cfg.newline) (hskip : s.la.skip = false)
    (hmarker : s.la.buf.head? = some s.cfg.marker) (hroom : s.rq.length ≠ s.cfg.rqCap) :
    s.laByte b = { s with
      la := { buf := [], skip := false }, rq := s.rq ++ [s.la.buf]
      cnt := { s.cnt with lines := satInc s.cfg s.cnt.lines } } := by
  rw [State.laByte_of_record hb hskip hmarker, State.pushLine_room _ _ (by exact hroom), State.count_lines]
  rfl

/-- RQ_PUSH into a full queue (R157). -/
theorem State.laByte_of_record_full (hb : b = s.cfg.newline) (hskip : s.la.skip = false)
    (hmarker : s.la.buf.head? = some s.cfg.marker) (hfull : s.rq.length = s.cfg.rqCap) :
    s.laByte b = { s with
      la := { buf := [], skip := false }
      cnt := { s.cnt with rqDrop := satInc s.cfg s.cnt.rqDrop }, lastErr := 4 } := by
  rw [State.laByte_of_record hb hskip hmarker, State.pushLine_full _ _ (by exact hfull), State.raise_rqFull]
  rfl

/-- LA_EOL_NOISE at the end of a line that is no record (R154). -/
theorem State.laByte_of_noise (hb : b = s.cfg.newline) (hskip : s.la.skip = false)
    (hmarker : s.la.buf.head? ≠ some s.cfg.marker) :
    s.laByte b = { s with
      la := { buf := [], skip := false }
      cnt := { s.cnt with lineNoise := satInc s.cfg s.cnt.lineNoise } } := by
  rw [s.laByte_eolNoise b (lineOp_eolNoise hb (.inr hmarker)), State.laEolNoise, if_neg (by simp [hskip]),
    State.raise_lineNoise]
  simp only [hskip]
  rfl

/-- LA_EOL_NOISE at the end of a skip (R154). -/
theorem State.laByte_of_skip_end (hb : b = s.cfg.newline) (hskip : s.la.skip = true) :
    s.laByte b = { s with la := { buf := [], skip := false } } := by
  rw [s.laByte_eolNoise b (lineOp_eolNoise hb (.inl hskip)), State.laEolNoise, if_pos hskip]

end

/-- Settles O12: LA_BYTE's seven cases, after the byte has left the queue. -/
theorem bqPopRunsOneLineOperation : Obligations.BqPopRunsOneLineOperation := by
  rintro s _ _ path rfl rfl
  rw [exec_bqPop path]
  refine ⟨fun hb hskip hroom => ?_, fun hb hskip => ?_, fun hb hskip hfull => ?_, fun hb hskip hmarker hroom => ?_,
    fun hb hskip hmarker hfull => ?_, fun hb hskip hmarker => ?_, fun hb hskip => ?_⟩
  · exact congrArg _ (State.laByte_of_room (s := s.takeByte) hb hskip hroom)
  · exact congrArg _ (State.laByte_of_skip (s := s.takeByte) hb hskip)
  · exact congrArg _ (State.laByte_of_full (s := s.takeByte) hb hskip hfull)
  · exact congrArg _ (State.laByte_of_record_room (s := s.takeByte) hb hskip hmarker hroom)
  · exact congrArg _ (State.laByte_of_record_full (s := s.takeByte) hb hskip hmarker hfull)
  · exact congrArg _ (State.laByte_of_noise (s := s.takeByte) hb hskip hmarker)
  · exact congrArg _ (State.laByte_of_skip_end (s := s.takeByte) hb hskip)

end Sys2Proof.Machine
end

section
/-! The rows of the Line Assembler's operations, each of them the BQ_POP step that performs it
(spec/41_line_assembler.md R150 to R154, R157). -/

namespace Sys2Proof.Machine

/-- The rows that name a Line Assembler operation. RQ_PUSH runs inside LA_EOL_EMIT (R157). -/
def LineOp.rows : LineOp → List Instr
  | .append => [.laAppend]
  | .overflow => [.laOverflow]
  | .eolEmit => [.laEolEmit, .rqPush]
  | .eolNoise => [.laEolNoise]

/-- Where BQ_POP selects an operation, a row of that operation is the BQ_POP step. -/
theorem exec_lineRow {s : State} (path : s.bytePath) {op : LineOp} (hop : lineOp s.cfg s.la s.headByte = op)
    {i : Instr} (hrow : i ∈ op.rows) : exec i s = exec .bqPop s := by
  rw [exec_bqPop path]
  cases op
  case append =>
    obtain rfl := List.mem_singleton.1 hrow
    rw [s.takeByte.laByte_append _ hop]
    exact attempt_of ⟨path, hop⟩ _ _
  case overflow =>
    obtain rfl := List.mem_singleton.1 hrow
    rw [s.takeByte.laByte_overflow _ hop]
    exact attempt_of ⟨path, hop⟩ _ _
  case eolEmit =>
    rw [s.takeByte.laByte_eolEmit _ hop]
    rcases List.mem_pair.1 hrow with rfl | rfl
    · exact attempt_of ⟨path, hop⟩ _ _
    · exact attempt_of ⟨path, hop⟩ _ _
  case eolNoise =>
    obtain rfl := List.mem_singleton.1 hrow
    rw [s.takeByte.laByte_eolNoise _ hop]
    exact attempt_of ⟨path, hop⟩ _ _

/-- Settles O13: each row is the BQ_POP step that selects its operation, whose next state O12 gives. -/
theorem lineOperationRowsAreTheirBqPopStep : Obligations.LineOperationRowsAreTheirBqPopStep := by
  intro s b q path hbyte hq
  obtain ⟨room, skip, full, recordRoom, recordFull, noise, skipEnd⟩ := bqPopRunsOneLineOperation s b q path hbyte hq
  change b = s.headByte at hbyte
  have row {op : LineOp} (hop : lineOp s.cfg s.la b = op) {i : Instr} (hrow : i ∈ op.rows) :
      exec i s = exec .bqPop s := exec_lineRow path (hbyte ▸ hop) hrow
  refine ⟨fun hb hskip hroom => ?_, fun hb hskip => ?_, fun hb hskip hfull => ?_,
    fun hb hskip hmarker hroom i hi => ?_, fun hb hskip hmarker hfull i hi => ?_, fun hb hskip hmarker => ?_,
    fun hb hskip => ?_⟩
  · rw [row (lineOp_append hb hskip hroom) (List.mem_singleton_self _), room hb hskip hroom]
  · rw [row (lineOp_overflow hb (.inl hskip)) (List.mem_singleton_self _), skip hb hskip]
  · rw [row (lineOp_overflow hb (.inr hfull)) (List.mem_singleton_self _), full hb hskip hfull]
  · rw [row (lineOp_eolEmit hb hskip hmarker) (List.mem_pair.2 hi), recordRoom hb hskip hmarker hroom]
  · rw [row (lineOp_eolEmit hb hskip hmarker) (List.mem_pair.2 hi), recordFull hb hskip hmarker hfull]
  · rw [row (lineOp_eolNoise hb (.inr hmarker)) (List.mem_singleton_self _), noise hb hskip hmarker]
  · rw [row (lineOp_eolNoise hb (.inl hskip)) (List.mem_singleton_self _), skipEnd hb hskip]

end Sys2Proof.Machine
end

section
/-! RQ_POP (spec/41_line_assembler.md R158): how the record of the line it takes is routed (spec/43_write_engine.md R200,
R201), the rows that name that same step (spec/42_record_parser.md R170), and that every step changes the Record Queue
at its ends only (R159, spec/20_memory.md R76). -/

namespace Sys2Proof.Machine

/-! ## Routing, branch by branch -/

section
variable {s : State} {r : Record}

theorem State.routeRecord_hex (hkind : r.kind ≠ .other) (herr : r.err = .hex) :
    s.routeRecord r = s.raise .hexError := by
  simp [State.routeRecord, hkind, herr]

theorem State.routeRecord_length (hkind : r.kind ≠ .other) (herr : r.err = .length) :
    s.routeRecord r = s.raise .lengthError := by
  simp [State.routeRecord, hkind, herr]

theorem State.routeRecord_checksum (hkind : r.kind ≠ .other) (herr : r.err = .none) (hvalid : r.valid = false) :
    s.routeRecord r = s.raise .checksumFail := by
  simp [State.routeRecord, hkind, herr, hvalid]

theorem State.routeRecord_data (hdata : isData r.kind = true) (herr : r.err = .none) (hvalid : r.valid = true) :
    s.routeRecord r = s.takeData r := by
  have hkind : r.kind ≠ .other := fun hother => by simp [hother, isData] at hdata
  simp [State.routeRecord, hkind, herr, hvalid, hdata]

theorem State.takeData_empty (hpayload : r.payload = []) : s.takeData r = s.count .dataRec :=
  if_pos hpayload

theorem State.takeData_load (hpayload : r.payload ≠ []) :
    s.takeData r = { s with
      we := { addr := r.address, data := r.payload }
      cons := { s.cons with state := .we } }.count .dataRec :=
  if_neg hpayload

end

/-! ## The line RQ_POP takes -/

theorem exec_rqPop {s : State} (path : s.linePath) : exec .rqPop s = .next s.takeLine :=
  attempt_of path _ _

theorem State.takeLine_cons {s : State} {line : List Byte} {rest : List (List Byte)} (hrq : s.rq = line :: rest) :
    s.takeLine = { s with rq := rest }.routeRecord (parseLine s.cfg line) := by
  simp [State.takeLine, State.headRecord, State.headLine, hrq]

/-- Settles O21: the branches of WE_RECORD, after the line has left the queue. -/
theorem rqPopRoutesTheRecord : Obligations.RqPopRoutesTheRecord := by
  rintro s line rest _ path hrq rfl
  rw [exec_rqPop path, State.takeLine_cons hrq]
  refine ⟨fun hkind => ?_, fun hkind herr => ?_, fun hkind herr => ?_, fun hkind herr hvalid => ?_,
    fun hdata herr hvalid hpayload => ?_, fun hdata herr hvalid hpayload => ?_⟩
  · rw [State.routeRecord_other _ _ hkind, State.raise_recordOther]; rfl
  · rw [State.routeRecord_hex hkind herr, State.raise_hexError]; rfl
  · rw [State.routeRecord_length hkind herr, State.raise_lengthError]; rfl
  · rw [State.routeRecord_checksum hkind herr hvalid, State.raise_checksumFail]; rfl
  · rw [State.routeRecord_data hdata herr hvalid, State.takeData_empty hpayload, State.count_dataRec]; rfl
  · rw [State.routeRecord_data hdata herr hvalid, State.takeData_load hpayload, State.count_dataRec]; rfl

/-! ## The rows of a line -/

theorem takeThisLine_of_head {s : State} {line : List Byte} (path : s.linePath) (hhead : s.headLine = line) :
    takeThisLine line s = .next s.takeLine := by
  subst hhead
  exact attempt_of ⟨path, rfl⟩ _ _

theorem exec_recOther {s : State} {line : List Byte} (path : s.linePath) (hhead : s.headLine = line)
    (hkind : lineKind s.cfg line = .other) : exec (.recOther line) s = .next s.takeLine := by
  subst hhead
  rw [← parseLine_kind] at hkind
  rw [s.takeLine_of_kind_other hkind]
  exact attempt_of ⟨path, rfl, hkind⟩ _ _

/-- Only a line of no record kind decodes to REC_OTHER (spec/42_record_parser.md R184). -/
theorem lineKind_of_decodeLine_recOther {c : Config} {line l : List Byte} (h : decodeLine c line = .recOther l) :
    lineKind c line = .other := by
  unfold decodeLine at h
  split at h
  case h_7 hkind => exact hkind
  all_goals cases h

/-- The row of the oldest line's kind takes that line: the row's word is the line itself (spec/30_encoding.md R93). -/
theorem exec_decodeLine {s : State} (path : s.linePath) : exec (decodeLine s.cfg s.headLine) s = .next s.takeLine := by
  have hword : encode s.cfg (decodeLine s.cfg s.headLine) = .line s.headLine := encode_decodeLine s.cfg s.headLine
  cases hi : decodeLine s.cfg s.headLine <;> rw [hi] at hword
  case recOther line =>
    obtain rfl := Fetched.line.inj hword
    exact exec_recOther path rfl (lineKind_of_decodeLine_recOther hi)
  case recData16 | recData24 | recData32 | recEnd32 | recEnd24 | recEnd16 =>
    exact takeThisLine_of_head path (Fetched.line.inj hword).symm
  all_goals cases hword

/-! ## The Record Queue under each operation -/

/-- Routing leaves the queue, or empties it at the end of a transfer. -/
theorem State.routeRecord_rq (s : State) (r : Record) : (s.routeRecord r).rq = s.rq ∨ (s.routeRecord r).rq = [] := by
  rcases s.routeRecord_cases r with ⟨e, -, heq⟩ | heq | heq <;> rw [heq]
  · exact .inl rfl
  · exact .inl (s.takeData_rq r)
  · exact .inr (State.endTransfer_rq _)

theorem State.takeLine_rq {s : State} {line : List Byte} {rest : List (List Byte)} (hrq : s.rq = line :: rest) :
    s.takeLine.rq = rest ∨ s.takeLine.rq = [] := by
  rw [State.takeLine_cons hrq]
  exact State.routeRecord_rq _ _

theorem State.pushLine_rq (s : State) (line : List Byte) :
    (s.pushLine line).rq = s.rq ∨ (s.pushLine line).rq = s.rq ++ [line] := by
  by_cases hfull : s.rq.length = s.cfg.rqCap
  · exact .inl (by rw [s.pushLine_full line hfull]; rfl)
  · exact .inr (by rw [s.pushLine_room line hfull]; rfl)

/-- LA_BYTE adds the line it has assembled, or leaves the queue. -/
theorem State.laByte_rq (s : State) (b : Byte) :
    (s.laByte b).rq = s.rq ∨ (s.laByte b).rq = s.rq ++ [s.la.buf] := by
  cases hop : lineOp s.cfg s.la b
  case append => exact .inl (by rw [s.laByte_append b hop, State.laAppend_rq])
  case overflow => exact .inl (by rw [s.laByte_overflow b hop, State.laOverflow_rq])
  case eolEmit => rw [s.laByte_eolEmit b hop]; exact State.pushLine_rq _ _
  case eolNoise => exact .inl (by rw [s.laByte_eolNoise b hop, State.laEolNoise_rq])

/-- Settles O23: each row is the step that takes the oldest line. -/
theorem lineRowsAreTheirRqPopStep : Obligations.LineRowsAreTheirRqPopStep := by
  intro s line rest path hrq
  have hhead : s.headLine = line := by simp [State.headLine, hrq]
  exact ⟨s.takeLine, exec_rqPop path, attempt_of path _ _, attempt_of path _ _, hhead ▸ exec_decodeLine path,
    State.takeLine_rq hrq⟩

/-! ## Every step -/

/-- The Record Queue changes at its ends only: it stays, gains a last line, loses the first one, or is emptied. -/
def State.RecordQueueEndsChange (s t : State) : Prop :=
  t.rq = s.rq ∨ (∃ line, t.rq = s.rq ++ [line]) ∨ (∃ line, s.rq = line :: t.rq) ∨ t.rq = []

/-- Every move changes the queue at its ends only: BQ_POP adds, RQ_POP takes or empties, SESSION_INIT empties. -/
theorem Move.recordQueueEndsChange {s t : State} (hm : Move s t) : s.RecordQueueEndsChange t := by
  cases hm
  case pop _ =>
    rcases s.takeByte.laByte_rq s.headByte with hkept | hadded
    · exact .inl hkept
    · exact .inr (.inl ⟨_, hadded⟩)
  case line path =>
    obtain ⟨-, -, hne, -⟩ := path
    obtain ⟨line, rest, hrq⟩ := List.exists_cons_of_ne_nil hne
    rcases State.takeLine_rq hrq with htaken | hempty
    · exact .inr (.inr (.inl ⟨line, by rw [hrq, htaken]⟩))
    · exact .inr (.inr (.inr hempty))
  case session _ => exact .inr (.inr (.inr rfl))
  case hostSession _ => exact .inr (.inr (.inr rfl))
  all_goals exact .inl (by simp)

/-- Settles O15: a relaunch empties the queue, and any other step is a move. -/
theorem recordQueueChangesOnlyAtItsEnds : Obligations.RecordQueueChangesOnlyAtItsEnds := by
  intro s t hstep
  obtain ⟨-, ⟨-, rfl⟩ | ⟨e, rest, -, ⟨level, -, rfl⟩ | ⟨-, hm⟩⟩⟩ := step_moves hstep
  · exact .inl rfl
  · exact .inr (.inr (.inr rfl))
  · exact hm.recordQueueEndsChange

end Sys2Proof.Machine
end

section
/-! Hex digits and hex pairs (spec/42_record_parser.md R176, R177): their values, and where they are in error. -/

namespace Sys2Proof.Machine

theorem eq_hexChar {c : Byte} {upper : Bool} {n : Nat}
    (h : c.toNat = if n < 10 then 0x30 + n else if upper then 0x37 + n else 0x57 + n) : c = hexChar upper n := by
  rw [hexChar, ← h, BitVec.ofNat_toNat, BitVec.setWidth_eq]

/-- HEXDIG's three ranges hold hex characters only (spec/30_encoding.md R94). -/
theorem exists_hexChar_of_range {c : Byte} (h : 0x30 ≤ c.toNat ∧ c.toNat ≤ 0x39 ∨
    0x41 ≤ c.toNat ∧ c.toNat ≤ 0x46 ∨ 0x61 ≤ c.toNat ∧ c.toNat ≤ 0x66) :
    ∃ (upper : Bool) (n : Fin 16), c = hexChar upper n.val := by
  rcases h with hdigit | hupper | hlower
  · refine ⟨true, ⟨c.toNat - 0x30, by omega⟩, eq_hexChar (n := c.toNat - 0x30) ?_⟩
    rw [if_pos (by omega)]
    omega
  · refine ⟨true, ⟨c.toNat - 0x37, by omega⟩, eq_hexChar (n := c.toNat - 0x37) ?_⟩
    rw [if_neg (by omega), if_pos rfl]
    omega
  · refine ⟨false, ⟨c.toNat - 0x57, by omega⟩, eq_hexChar (n := c.toNat - 0x57) ?_⟩
    rw [if_neg (by omega), if_neg Bool.false_ne_true]
    omega

/-- Any other byte is left to the mode (R177). -/
theorem hexDigit_of_ne_hexChar {c : Byte} (h : ∀ (upper : Bool) (n : Fin 16), c ≠ hexChar upper n.val) :
    hexDigit .reject c = none ∧ hexDigit .zeroSubstitute c = some 0 := by
  have hrange := mt exists_hexChar_of_range (by simpa using h)
  simp only [not_or] at hrange
  obtain ⟨hdigit, hupper, hlower⟩ := hrange
  exact ⟨by simp only [hexDigit, if_neg hdigit, if_neg hupper, if_neg hlower],
    by simp only [hexDigit, if_neg hdigit, if_neg hupper, if_neg hlower]⟩

theorem hexDigit_zeroSubstitute_ne_none (c : Byte) : hexDigit .zeroSubstitute c ≠ none := by
  unfold hexDigit
  split_ifs <;> exact Option.some_ne_none _

/-- The first character of a pair is its high nibble. -/
theorem hexPair_of_digits {mode : HexErrorMode} {c0 c1 : Byte} {v0 v1 : BitVec 4} (h0 : hexDigit mode c0 = some v0)
    (h1 : hexDigit mode c1 = some v1) : hexPair mode c0 c1 = some (BitVec.ofNat 8 (16 * v0.toNat + v1.toNat)) := by
  simp only [hexPair, h0, h1]

theorem hexPair_eq_none_iff {mode : HexErrorMode} {c0 c1 : Byte} :
    hexPair mode c0 c1 = none ↔ hexDigit mode c0 = none ∨ hexDigit mode c1 = none := by
  cases h0 : hexDigit mode c0 <;> cases h1 : hexDigit mode c1 <;> simp [hexPair, h0, h1]

theorem hexPair_zeroSubstitute_ne_none (c0 c1 : Byte) : hexPair .zeroSubstitute c0 c1 ≠ none := by
  rw [Ne, hexPair_eq_none_iff, not_or]
  exact ⟨hexDigit_zeroSubstitute_ne_none c0, hexDigit_zeroSubstitute_ne_none c1⟩

/-- Settles O18: the values on hex characters, the mode's answer elsewhere, and the pair of two digits. -/
theorem hexDigitsHaveTheirValues : Obligations.HexDigitsHaveTheirValues :=
  ⟨fun mode upper n => hexDigit_hexChar mode upper n.val n.isLt, fun _ h => hexDigit_of_ne_hexChar h,
    fun _ _ _ _ _ h0 h1 => hexPair_of_digits h0 h1, fun _ _ _ h => hexPair_eq_none_iff.2 h⟩

end Sys2Proof.Machine
end

section
/-! The order of the parser's checks (spec/42_record_parser.md R171, R186), and that no line is a hex error in mode
`zero_substitute` (R177, spec/60_exceptions.md R265). -/

namespace Sys2Proof.Machine

section
variable {mode : HexErrorMode} {k : Kind} {c0 c1 count : Byte} {text : List Byte}

/-! ## Each check, where the ones before it pass -/

theorem parseBody_short (h : text.length < 2) : parseBody mode k text = badRecord k .length := by
  unfold parseBody
  split
  next => simp at h
  next => rfl

theorem parseBody_count_hex (h : hexPair mode c0 c1 = none) :
    parseBody mode k (c0 :: c1 :: text) = badRecord k .hex := by
  simp only [parseBody, h]

theorem parseBody_count_length (hcount : hexPair mode c0 c1 = some count)
    (h : count.toNat < addrWidth k + 1 ∨ text.length < 2 * count.toNat) :
    parseBody mode k (c0 :: c1 :: text) = badRecord k .length := by
  simp only [parseBody, hcount, if_pos h]

theorem parseBody_later_hex (hcount : hexPair mode c0 c1 = some count) (hfits : addrWidth k + 1 ≤ count.toNat)
    (hlong : 2 * count.toNat ≤ text.length) (h : hexBytes mode count.toNat text = none) :
    parseBody mode k (c0 :: c1 :: text) = badRecord k .hex := by
  have hlength : ¬ (count.toNat < addrWidth k + 1 ∨ text.length < 2 * count.toNat) := by omega
  simp only [parseBody, hcount, if_neg hlength, h]

theorem parseBody_fields {bs : List Byte} (hcount : hexPair mode c0 c1 = some count)
    (hfits : addrWidth k + 1 ≤ count.toNat) (hlong : 2 * count.toNat ≤ text.length)
    (h : hexBytes mode count.toNat text = some bs) :
    parseBody mode k (c0 :: c1 :: text) = fieldsRecord k count bs := by
  have hlength : ¬ (count.toNat < addrWidth k + 1 ∨ text.length < 2 * count.toNat) := by omega
  simp only [parseBody, hcount, if_neg hlength, h]

end

/-- Marker, kind byte and the count's two characters stand before the pairs the count counts. -/
theorem exists_eq_cons_of_four_le {line : List Byte} (h : 4 ≤ line.length) :
    ∃ m d c0 c1 text, line = m :: d :: c0 :: c1 :: text := by
  rcases line with _ | ⟨m, _ | ⟨d, _ | ⟨c0, _ | ⟨c1, text⟩⟩⟩⟩
  case cons.cons.cons.cons => exact ⟨m, d, c0, c1, text, rfl⟩
  all_goals simp at h

/-- The `j`-th pair after the count, by its place in the line (R171). -/
theorem hexPair_afterCount (mode : HexErrorMode) (m d c0 c1 : Byte) (text : List Byte) (j : Nat) :
    hexPair mode ((m :: d :: c0 :: c1 :: text).getD (4 + 2 * j) 0) ((m :: d :: c0 :: c1 :: text).getD (5 + 2 * j) 0) =
      hexPair mode (text.getD (2 * j) 0) (text.getD (2 * j + 1) 0) := by
  rw [show 4 + 2 * j = 2 * j + 1 + 1 + 1 + 1 by omega, show 5 + 2 * j = 2 * j + 1 + 1 + 1 + 1 + 1 by omega]
  rfl

/-- Settles O17: the branches of PARSE from its third step on. -/
theorem parseErrorsComeInOrder : Obligations.ParseErrorsComeInOrder := by
  intro c line hkind
  rw [parseLine_of_kind hkind]
  by_cases hshort : line.length < 4
  · exact ⟨fun _ => parseBody_short (by rw [List.length_drop]; omega), fun hlen => absurd hshort (by omega),
      fun _ hlen => absurd hshort (by omega)⟩
  obtain ⟨m, d, c0, c1, text, rfl⟩ := exists_eq_cons_of_four_le (not_lt.1 hshort)
  generalize lineKind c (m :: d :: c0 :: c1 :: text) = k
  have hlength : (m :: d :: c0 :: c1 :: text).length = text.length + 4 := rfl
  refine ⟨fun h => absurd h hshort, fun _ hcount => parseBody_count_hex hcount, fun count _ hcount =>
    ⟨fun h => parseBody_count_length hcount (by omega), fun hfits hlong => ?_⟩⟩
  have hpairs : 2 * count.toNat ≤ text.length := by omega
  have hlater := hexBytes_eq_none (mode := c.hexMode) hpairs
  simp only [hexPair_afterCount]
  refine ⟨fun hbad => parseBody_later_hex hcount hfits hpairs (hlater.2 hbad), fun hgood => ?_⟩
  obtain ⟨bs, hbs⟩ : ∃ bs, hexBytes c.hexMode count.toNat text = some bs :=
    Option.ne_none_iff_exists'.1 fun hnone =>
      have ⟨j, hj, hbad⟩ := hlater.1 hnone
      hgood j hj hbad
  have hfields := parseBody_fields hcount hfits hpairs hbs
  exact ⟨congrArg Record.err hfields, congrArg Record.kind hfields⟩

/-- Settles O19: of the outcomes of O17, the two hex errors need a pair in error. -/
theorem zeroSubstituteNeverReportsHex : Obligations.ZeroSubstituteNeverReportsHex := by
  intro c line hmode hhex
  have hpair (c0 c1 : Byte) : hexPair c.hexMode c0 c1 ≠ none := hmode ▸ hexPair_zeroSubstitute_ne_none c0 c1
  have hkind : lineKind c line ≠ .other := fun hother => by
    rw [parseLine_other ((parseLine_kind c line).trans hother)] at hhex
    cases hhex
  obtain ⟨short, -, counted⟩ := parseErrorsComeInOrder c line hkind
  rcases lt_or_ge line.length 4 with hshort | hlen
  · rw [short hshort] at hhex
    cases hhex
  · obtain ⟨count, hcount⟩ := Option.ne_none_iff_exists'.1 (hpair (line.getD 2 0) (line.getD 3 0))
    obtain ⟨length, later⟩ := counted count hlen hcount
    by_cases hlength : count.toNat < addrWidth (lineKind c line) + 1 ∨ line.length < 4 + 2 * count.toNat
    · rw [length hlength] at hhex
      cases hhex
    · obtain ⟨-, good⟩ := later (by omega) (by omega)
      obtain ⟨hnone, -⟩ := good fun j _ => hpair _ _
      rw [hnone] at hhex
      cases hhex

end Sys2Proof.Machine
end

section
/-! The record lines as rows (spec/42_record_parser.md R178 to R184): a data record's text loads the cursor, an end
record's text ends the transfer, and a line of no record kind is noted. -/

namespace Sys2Proof.Machine

/-- The row a queued line decodes to is the RQ_POP step that takes it. -/
theorem exec_of_decodeLine {s : State} {line : List Byte} {rest : List (List Byte)} {i : Instr} (path : s.linePath)
    (hrq : s.rq = line :: rest) (hdec : decodeLine s.cfg line = i) : exec i s = exec .rqPop s := by
  obtain ⟨t, hpop, -, -, hrow, -⟩ := lineRowsAreTheirRqPopStep s line rest path hrq
  rw [← hdec, hrow, hpop]

/-- The text of a record with a right checksum is a valid record. -/
theorem parseLine_recordText {c : Config} {d : Byte} {addr payload : List Byte} {cks : Byte}
    (hkind : c.kindOf d ≠ .other) (haddr : addr.length = addrWidth (c.kindOf d))
    (hlen : addr.length + payload.length + 1 ≤ 255) (hsum : ChecksumRelation addr payload cks)
    (trailing : List Byte) (upper : Nat → Bool) :
    parseLine c (c.marker :: d :: recordText upper addr payload cks trailing) =
      { kind := c.kindOf d, address := BitVec.ofNat 32 (addressSum addr), payload := payload, checksum := cks
        valid := true, err := .none } := by
  obtain ⟨v, hv, hparse⟩ :=
    parseReadsBackEveryRecordText c d addr payload cks trailing upper hkind haddr hlen
  rw [hparse, hv.2 hsum]

/-- The three data rows, by their kind digit. -/
theorem dataRow_of_digit {c : Config} (hc : c.wf = true) {addr text : List Byte} {d : Byte} {i : Instr}
    (h : addr.length = 2 ∧ d = c.kinds.data16 ∧ i = .recData16 text ∨
      addr.length = 3 ∧ d = c.kinds.data24 ∧ i = .recData24 text ∨
      addr.length = 4 ∧ d = c.kinds.data32 ∧ i = .recData32 text) :
    isData (c.kindOf d) = true ∧ addr.length = addrWidth (c.kindOf d) ∧ decodeLine c (c.marker :: d :: text) = i := by
  obtain ⟨h16, h24, h32, -⟩ := kindOf_digits hc
  rcases h with ⟨haddr, rfl, rfl⟩ | ⟨haddr, rfl, rfl⟩ | ⟨haddr, rfl, rfl⟩
  · exact ⟨by rw [h16]; rfl, by rw [h16]; exact haddr, by simp [decodeLine, h16]⟩
  · exact ⟨by rw [h24]; rfl, by rw [h24]; exact haddr, by simp [decodeLine, h24]⟩
  · exact ⟨by rw [h32]; rfl, by rw [h32]; exact haddr, by simp [decodeLine, h32]⟩

/-- The three end rows, by their kind digit. -/
theorem endRow_of_digit {c : Config} (hc : c.wf = true) {addr text : List Byte} {d : Byte} {i : Instr}
    (h : addr.length = 4 ∧ d = c.kinds.end32 ∧ i = .recEnd32 text ∨
      addr.length = 3 ∧ d = c.kinds.end24 ∧ i = .recEnd24 text ∨
      addr.length = 2 ∧ d = c.kinds.end16 ∧ i = .recEnd16 text) :
    isEnd (c.kindOf d) = true ∧ addr.length = addrWidth (c.kindOf d) ∧ decodeLine c (c.marker :: d :: text) = i := by
  obtain ⟨-, -, -, e32, e24, e16⟩ := kindOf_digits hc
  rcases h with ⟨haddr, rfl, rfl⟩ | ⟨haddr, rfl, rfl⟩ | ⟨haddr, rfl, rfl⟩
  · exact ⟨by rw [e32]; rfl, by rw [e32]; exact haddr, by simp [decodeLine, e32]⟩
  · exact ⟨by rw [e24]; rfl, by rw [e24]; exact haddr, by simp [decodeLine, e24]⟩
  · exact ⟨by rw [e16]; rfl, by rw [e16]; exact haddr, by simp [decodeLine, e16]⟩

/-- Settles O24: the row is the RQ_POP step of its line, and O21 routes the record that the text parses to. -/
theorem dataRecordLinesLoadTheCursor : Obligations.DataRecordLinesLoadTheCursor := by
  rintro s rest addr payload cks trailing upper i d _ hc path rfl hrow hlen hpayload hsum hrq
  obtain ⟨hdata, haddr, hdec⟩ := dataRow_of_digit hc hrow
  have hkind : s.cfg.kindOf d ≠ .other := fun hother => by simp [hother, isData] at hdata
  obtain ⟨-, -, -, -, -, load⟩ := rqPopRoutesTheRecord s _ rest _ path hrq
    (parseLine_recordText hkind haddr hlen hsum trailing upper).symm
  rw [exec_of_decodeLine path hrq hdec]
  exact load hdata rfl rfl hpayload

/-- WE_END with nothing to flush (spec/43_write_engine.md R209): the End reset finds no PendingMerge to clear, and the
end is announced at once. -/
theorem State.endTransfer_of_no_merge {s : State} (hpm : s.pm.valid = false) (hidle : s.cons.state = .idle) :
    s.endTransfer = { s with la := { buf := [], skip := false }, rq := [] }.emitTransferDone := by
  have hreset : s.endReset = { s with la := { buf := [], skip := false }, rq := [] } := by
    rw [State.endReset, ← hpm]
  have hdone : ¬ (s.cons.state = .wait ∨ s.cons.state = .fault) := by simp [hidle]
  rw [State.endTransfer, if_neg (by simp [hpm]), hreset, State.announceEnd, if_neg hdone, ← hidle]

/-- Settles O25: the row is the RQ_POP step of its line, and the valid end record that the text parses to ends the
transfer. -/
theorem endRecordLinesEndTheTransfer : Obligations.EndRecordLinesEndTheTransfer := by
  rintro s rest addr payload cks trailing upper i d _ hc path rfl hrow hlen hsum hpm hrq
  obtain ⟨hend, haddr, hdec⟩ := endRow_of_digit hc hrow
  have hkind : s.cfg.kindOf d ≠ .other := fun hother => by simp [hother, isEnd] at hend
  have ⟨_, hidle, _⟩ := path
  have hdone := State.endTransfer_of_no_merge (s := { s with rq := rest }.count .endRec) hpm hidle
  rw [exec_of_decodeLine path hrq hdec, exec_rqPop path, State.takeLine_cons hrq,
    parseLine_recordText hkind haddr hlen hsum, State.routeRecord_end _ _ hend rfl rfl, hdone, State.count_endRec]
  rfl

/-- Settles O26: the line decodes to REC_OTHER, and O21 notes it. -/
theorem otherLinesAreOnlyNoted : Obligations.OtherLinesAreOnlyNoted := by
  intro s line rest path hrq hother
  have hkind := lineKind_of_otherLine hother
  have hdec : decodeLine s.cfg line = .recOther line := by simp only [decodeLine, hkind]
  obtain ⟨note, -⟩ := rqPopRoutesTheRecord s line rest _ path hrq rfl
  rw [exec_of_decodeLine path hrq hdec]
  exact note ((parseLine_kind s.cfg line).trans hkind)

end Sys2Proof.Machine
end

section
/-! The Write Engine's operations where they are enabled (spec/43_write_engine.md R203 to R210), and that exactly one of
them is. -/

namespace Sys2Proof.Machine

/-! ## ISSUE_PROGRAM8's three outcomes -/

theorem State.issueProgram8_ready (s : State) (base : Addr) (data : Phrase) (ret : WaitRet)
    (hwindow : phraseInWindow s.cfg base = true) (hram : s.sc.ramReady = true) :
    s.issueProgram8 base data ret = issuedProgram s base data ret :=
  (s.issueProgram8_in base data ret hwindow).trans (s.scIssue_ready _ base data ret hram)

theorem State.issueProgram8_fault (s : State) (base : Addr) (data : Phrase) (ret : WaitRet)
    (hwindow : phraseInWindow s.cfg base = true) (hram : s.sc.ramReady = false) :
    s.issueProgram8 base data ret = { s with faultNoRam := true, cons := { s.cons with state := .fault } } :=
  (s.issueProgram8_in base data ret hwindow).trans (s.scIssue_fault _ base data ret hram)

theorem State.issueProgram8_ignored (s : State) (base : Addr) (data : Phrase) (ret : WaitRet)
    (hwindow : phraseInWindow s.cfg base = false) :
    s.issueProgram8 base data ret = { s with
      cnt := { s.cnt with outOfRegion := satInc s.cfg s.cnt.outOfRegion }, lastErr := 9 } :=
  (s.issueProgram8_out base data ret hwindow).trans s.raise_outOfRegion

/-- What a step that ends in ISSUE_PROGRAM8 answers. -/
theorem State.issueProgram8_outcomes {s : State} {base : Addr} {data : Phrase} {ret : WaitRet}
    {answer : Host.Outcome State Fault Refusal} (h : answer = .next (s.issueProgram8 base data ret)) :
    (phraseInWindow s.cfg base = true → s.sc.ramReady = true → answer = .next (issuedProgram s base data ret)) ∧
    (phraseInWindow s.cfg base = true → s.sc.ramReady = false →
      answer = .next { s with faultNoRam := true, cons := { s.cons with state := .fault } }) ∧
    (phraseInWindow s.cfg base = false → answer = .next { s with
      cnt := { s.cnt with outOfRegion := satInc s.cfg s.cnt.outOfRegion }, lastErr := 9 }) := by
  subst h
  exact ⟨fun hwindow hram => by rw [s.issueProgram8_ready _ _ _ hwindow hram],
    fun hwindow hram => by rw [s.issueProgram8_fault _ _ _ hwindow hram],
    fun hwindow => by rw [s.issueProgram8_ignored _ _ _ hwindow]⟩

/-! ## The cases as operations -/

/-- The operation of each case (spec/30_encoding.md R108). -/
def WriteCase.instr : WriteCase → Instr
  | .caseA => .weCaseA
  | .caseB => .weCaseB
  | .caseC => .weCaseC
  | .skip => .weSkip

/-- What the operation of each case does. -/
def State.caseEffect (s : State) : WriteCase → State
  | .caseA => s.stash
  | .caseB => s.mergeHigh
  | .caseC => s.programWhole
  | .skip => s.skipRest

/-- Each case's operation is enabled by the selector. -/
theorem exec_case (c : WriteCase) (s : State) : exec c.instr s = attempt (s.weCase c) s (s.caseEffect c) := by
  cases c <;> rfl

theorem exec_weFinish (s : State) :
    exec .weFinish s = attempt (s.running ∧ s.cons.state = .we ∧ s.we.data = []) s
      { s with cons := { s.cons with state := .idle } } := rfl

theorem exec_of_weCase {s : State} {c : WriteCase} (h : s.weCase c) : exec c.instr s = .next (s.caseEffect c) :=
  (exec_case c s).trans (attempt_of h _ _)

theorem exec_of_not_weCase {s : State} {c : WriteCase} (h : ¬ s.weCase c) : exec c.instr s = .next s :=
  (exec_case c s).trans (attempt_not h _ _)

theorem writeCase_eq_caseA {a : Addr} (haligned : a.toNat % 8 = 0) : writeCase a 4 = .caseA := by
  simp [writeCase, haligned]

theorem writeCase_eq_caseB {a : Addr} {n : Nat} (hhalf : a.toNat % 8 = 4) (hn : 4 ≤ n) : writeCase a n = .caseB := by
  simp [writeCase, hhalf, hn]

theorem writeCase_eq_caseC {a : Addr} {n : Nat} (haligned : a.toNat % 8 = 0) (hn : 8 ≤ n) :
    writeCase a n = .caseC := by
  simp [writeCase, haligned, hn, show n ≠ 4 by omega]

/-- No case applies (spec/43_write_engine.md R207). -/
theorem writeCase_eq_skip {a : Addr} {n : Nat} (hC : a.toNat % 8 = 0 → n ≠ 4 ∧ n < 8)
    (hB : a.toNat % 8 = 4 → n < 4) : writeCase a n = .skip := by
  rcases writeCase_cases a n with ⟨h, hn, -⟩ | ⟨h, hn, -⟩ | ⟨h, hn, -⟩ | ⟨-, -, heq⟩
  · exact absurd hn (hC h).1
  · exact absurd (hB h) (by omega)
  · exact absurd (hC h).2 (by omega)
  · exact heq

/-! ## Exactly one step moves -/

/-- WE_CASE_A, written out (spec/43_write_engine.md R204). -/
theorem State.stash_eq (s : State) : s.stash = { s with
    pm := { valid := true, base := s.we.addr, low4 := firstHalf s.we.data }
    we := { addr := s.we.addr + 4, data := s.we.data.drop 4 }
    cnt := if s.pm.valid = true then { s.cnt with mergeLost := satInc s.cfg s.cnt.mergeLost } else s.cnt
    lastErr := if s.pm.valid = true then 11 else s.lastErr } := by
  unfold State.stash
  split
  next hlost => rw [State.raise_mergeLost]; rfl
  next => rfl

@[simp] theorem State.stash_we (s : State) :
    s.stash.we = { addr := s.we.addr + 4, data := s.we.data.drop 4 } := by
  rw [State.stash_eq]

/-- Every case's operation uses up bytes of the record. -/
theorem State.caseEffect_data_lt {s : State} (hdata : s.we.data ≠ []) (c : WriteCase) :
    (s.caseEffect c).we.data.length < s.we.data.length := by
  have hpos := List.length_pos_iff.2 hdata
  have hdrop (k : Nat) (hk : 0 < k) : (s.we.data.drop k).length < s.we.data.length := by
    rw [List.length_drop]; omega
  cases c with
  | caseA => simpa [State.caseEffect] using hdrop 4 (by omega)
  | caseB => simpa [State.caseEffect, State.mergeHigh] using hdrop 4 (by omega)
  | caseC => simpa [State.caseEffect, State.programWhole] using hdrop 8 (by omega)
  | skip => exact hpos

theorem State.caseEffect_ne {s : State} (hdata : s.we.data ≠ []) (c : WriteCase) : s.caseEffect c ≠ s := fun h => by
  have hlt := State.caseEffect_data_lt hdata c
  rw [h] at hlt
  exact hlt.false

/-- The five steps are WE_FINISH and the operations of the cases. -/
theorem writeStep_cases {j : Instr} (hj : j ∈ [Instr.weCaseA, .weCaseB, .weCaseC, .weSkip, .weFinish]) :
    j = .weFinish ∨ ∃ c : WriteCase, j = c.instr := by
  simp only [List.mem_cons, List.not_mem_nil, or_false] at hj
  rcases hj with rfl | rfl | rfl | rfl | rfl
  · exact .inr ⟨.caseA, rfl⟩
  · exact .inr ⟨.caseB, rfl⟩
  · exact .inr ⟨.caseC, rfl⟩
  · exact .inr ⟨.skip, rfl⟩
  · exact .inl rfl

theorem WriteCase.instr_mem (c : WriteCase) :
    c.instr ∈ [Instr.weCaseA, .weCaseB, .weCaseC, .weSkip, .weFinish] := by
  cases c <;> simp [WriteCase.instr]

/-- Settles O32: WE_FINISH on an exhausted record, and otherwise the operation of the case that the selector gives. -/
theorem exactlyOneWriteStepMoves : Obligations.ExactlyOneWriteStepMoves := by
  intro s hrun hwe
  by_cases hdata : s.we.data = []
  · refine ⟨.weFinish, by simp, ⟨_, attempt_of ⟨hrun, hwe, hdata⟩ _ _, fun h => ?_⟩, fun j hj hne => ?_⟩
    · have hidle : ConsState.idle = s.cons.state := congrArg (·.cons.state) h
      simp [hwe] at hidle
    · obtain rfl | ⟨c, rfl⟩ := writeStep_cases hj
      · exact absurd rfl hne
      · exact exec_of_not_weCase fun ⟨_, _, hleft, _⟩ => hleft hdata
  · refine ⟨(writeCase s.we.addr s.we.data.length).instr, WriteCase.instr_mem _,
      ⟨_, exec_of_weCase ⟨hrun, hwe, hdata, rfl⟩, State.caseEffect_ne hdata _⟩, fun j hj hne => ?_⟩
    obtain rfl | ⟨c, rfl⟩ := writeStep_cases hj
    · exact attempt_not (fun ⟨_, _, hempty⟩ => hdata hempty) _ _
    · exact exec_of_not_weCase fun ⟨_, _, _, hcase⟩ => hne (hcase ▸ rfl)

/-! ## The five steps, with the whole next state -/

/-- Settles O27: the selector gives WE_CASE_A, whose effect is written out. -/
theorem weCaseAStashesTheFragment : Obligations.WeCaseAStashesTheFragment := by
  intro s b0 b1 b2 b3 hrun hwe haligned hdata
  have hcase : s.weCase .caseA := ⟨hrun, hwe, by simp [hdata], by rw [hdata]; exact writeCase_eq_caseA haligned⟩
  have hexec : exec .weCaseA s = .next s.stash := exec_of_weCase hcase
  rw [hexec, State.stash_eq, hdata]
  rfl

/-- WE_CASE_B up to its command, written out (spec/43_write_engine.md R205). -/
theorem State.useMerge_eq (s : State) : s.useMerge = { s with
    pm := { s.pm with valid := false }
    we := { addr := s.we.addr + 4, data := s.we.data.drop 4 }
    cnt := if s.pm.valid = true ∧ s.pm.base ≠ s.we.addr - 4
      then { s.cnt with mergeLost := satInc s.cfg s.cnt.mergeLost } else s.cnt
    lastErr := if s.pm.valid = true ∧ s.pm.base ≠ s.we.addr - 4 then 11 else s.lastErr } := by
  unfold State.useMerge
  split
  next hlost => rw [State.raise_mergeLost]; rfl
  next => rfl

/-- Settles O28: the outcomes of ISSUE_PROGRAM8, once the PendingMerge is used up. -/
theorem weCaseBMergesOrPads : Obligations.WeCaseBMergesOrPads := by
  rintro s s1 b0 b1 b2 b3 rest _ _ hrun hwe hhalf hdata rfl rfl hs1
  have hcase : s.weCase .caseB :=
    ⟨hrun, hwe, by simp [hdata], by rw [hdata]; exact writeCase_eq_caseB hhalf (by simp)⟩
  have hmerge : s.useMerge = s1 := by rw [hs1, State.useMerge_eq, hdata]; rfl
  have hhigh : firstHalf s.we.data = ⟨b0, b1, b2, b3⟩ := by rw [hdata]; rfl
  have hexec : exec .weCaseB s = .next (s1.issueProgram8 (s.we.addr - 4) s.mergedPhrase .we) :=
    hmerge ▸ exec_of_weCase hcase
  have hcount : s1.cnt.outOfRegion = s.cnt.outOfRegion := by
    rw [hs1]
    split
    · rfl
    · rfl
  rw [State.mergedPhrase, hhigh] at hexec
  rw [← hcount]
  subst hs1
  exact State.issueProgram8_outcomes hexec

/-- Settles O29: the outcomes of ISSUE_PROGRAM8, once the cursor has moved on. -/
theorem weCaseCProgramsTheFirstPhrase : Obligations.WeCaseCProgramsTheFirstPhrase := by
  rintro s s1 b0 b1 b2 b3 b4 b5 b6 b7 rest hrun hwe haligned hdata hs1
  have hcase : s.weCase .caseC :=
    ⟨hrun, hwe, by simp [hdata], by rw [hdata]; exact writeCase_eq_caseC haligned (by simp)⟩
  have hadvance : s.advance 8 = s1 := by rw [hs1, State.advance, hdata]; rfl
  have hphrase : firstPhrase s.we.data = ⟨⟨b0, b1, b2, b3⟩, ⟨b4, b5, b6, b7⟩⟩ := by rw [hdata]; rfl
  have hexec : exec .weCaseC s = .next (s1.issueProgram8 s.we.addr ⟨⟨b0, b1, b2, b3⟩, ⟨b4, b5, b6, b7⟩⟩ .we) :=
    hadvance ▸ hphrase ▸ exec_of_weCase hcase
  subst hs1
  exact State.issueProgram8_outcomes hexec

/-- Settles O30: R207's three conditions leave the selector nothing but WE_SKIP. -/
theorem weSkipCountsTheRest : Obligations.WeSkipCountsTheRest := by
  intro s hrun hwe hdata hnone
  have hskip : writeCase s.we.addr s.we.data.length = .skip := by
    simp only [List.mem_cons, List.not_mem_nil, or_false] at hnone
    exact writeCase_eq_skip (by omega) (by omega)
  exact exec_of_weCase (c := .skip) ⟨hrun, hwe, hdata, hskip⟩

/-- Settles O31: the step is enabled. -/
theorem weFinishReturnsToIdle : Obligations.WeFinishReturnsToIdle :=
  fun s hrun hwe hdata => (exec_weFinish s).trans (attempt_of ⟨hrun, hwe, hdata⟩ _ _)

/-- Settles O48: both inputs are enabled. -/
theorem controlInputsTakeEffect : Obligations.ControlInputsTakeEffect :=
  fun s => ⟨fun hidle happ => attempt_of ⟨hidle, happ⟩ s s.setRamReady, fun hloop => attempt_of hloop s s.enableRun⟩

end Sys2Proof.Machine
end

section
/-! The end of a transfer (spec/43_write_engine.md R209): the End reset, the flush, and when the end is announced. -/

namespace Sys2Proof.Machine

/-! ## WE_END, branch by branch -/

theorem State.announceEnd_idle {s : State} (hidle : s.cons.state = .idle) : s.announceEnd = s.emitTransferDone := by
  rw [State.announceEnd, if_neg (by simp [hidle]), ← hidle]

/-- While a flush is outstanding, and after its fault, the end is not announced (spec/90_conflicts.md C13). -/
theorem State.announceEnd_withheld {s : State} (h : s.cons.state = .wait ∨ s.cons.state = .fault) :
    s.announceEnd = s :=
  if_pos h

section
variable {s : State}

theorem State.endTransfer_nothing (hpm : s.pm.valid = false) (hidle : s.cons.state = .idle) :
    s.endTransfer = s.endReset.emitTransferDone := by
  rw [State.endTransfer, if_neg (by simp [hpm]), State.announceEnd_idle (s := s.endReset) hidle]

theorem State.endTransfer_flush (hpm : s.pm.valid = true) :
    s.endTransfer = (s.endReset.issueProgram8 s.pm.base ⟨s.pm.low4, erasedHalf⟩ .endFlush).announceEnd := by
  rw [State.endTransfer, if_pos hpm]

theorem State.endTransfer_flush_ready (hpm : s.pm.valid = true) (hwindow : phraseInWindow s.cfg s.pm.base = true)
    (hram : s.sc.ramReady = true) :
    s.endTransfer = issuedProgram s.endReset s.pm.base ⟨s.pm.low4, erasedHalf⟩ .endFlush := by
  rw [State.endTransfer_flush hpm, s.endReset.issueProgram8_ready _ _ _ hwindow hram,
    State.announceEnd_withheld (.inl rfl)]

theorem State.endTransfer_flush_fault (hpm : s.pm.valid = true) (hwindow : phraseInWindow s.cfg s.pm.base = true)
    (hram : s.sc.ramReady = false) :
    s.endTransfer = { s.endReset with faultNoRam := true, cons := { s.cons with state := .fault } } := by
  rw [State.endTransfer_flush hpm, s.endReset.issueProgram8_fault _ _ _ hwindow hram,
    State.announceEnd_withheld (.inr rfl), State.endReset_cons]

theorem State.endTransfer_flush_ignored (hpm : s.pm.valid = true) (hwindow : phraseInWindow s.cfg s.pm.base = false)
    (hidle : s.cons.state = .idle) :
    s.endTransfer = { s.endReset with
      cnt := { s.cnt with outOfRegion := satInc s.cfg s.cnt.outOfRegion }, lastErr := 9 }.emitTransferDone := by
  rw [State.endTransfer_flush hpm, s.endReset.issueProgram8_ignored _ _ _ hwindow]
  exact State.announceEnd_idle hidle

end

/-- RQ_POP and WE_END are one step on a valid end record. -/
theorem exec_of_endRecord {s : State} {line : List Byte} {rest : List (List Byte)} {i : Instr}
    (hi : i = .rqPop ∨ i = .weEnd) (path : s.linePath) (hrq : s.rq = line :: rest)
    (hend : isEnd (parseLine s.cfg line).kind = true) (hvalid : (parseLine s.cfg line).valid = true) :
    exec i s = .next ({ s with rq := rest }.count .endRec).endTransfer := by
  have hrecord : s.headRecord = parseLine s.cfg line := by simp [State.headRecord, State.headLine, hrq]
  have hends : s.headEnds = true := by simp [State.headEnds, hrecord, hend, hvalid]
  have htail : s.rq.tail = rest := by rw [hrq]; rfl
  rw [← htail]
  rcases hi with rfl | rfl
  · rw [exec_rqPop path, s.takeLine_of_ends hends]
  · exact attempt_of ⟨path, hends⟩ _ _

/-- Settles O22: with nothing to flush the end is announced at once; else the outcomes of ISSUE_PROGRAM8 say whether. -/
theorem validEndRecordEndsTheTransfer : Obligations.ValidEndRecordEndsTheTransfer := by
  rintro s _ line rest i hi path hrq hend hvalid rfl
  have ⟨_, hidle, _⟩ := path
  rw [exec_of_endRecord hi path hrq hend hvalid]
  exact ⟨fun hpm => congrArg _ (State.endTransfer_nothing hpm hidle),
    fun hpm hwindow => congrArg _ (State.endTransfer_flush_ignored hpm hwindow hidle),
    fun hpm hwindow hram => congrArg _ (State.endTransfer_flush_ready hpm hwindow hram),
    fun hpm hwindow hram => congrArg _ (State.endTransfer_flush_fault hpm hwindow hram)⟩

end Sys2Proof.Machine
end

section
/-! A record of whole aligned phrases (spec/43_write_engine.md R213): WE_CASE_C and its completion write one phrase, and
phrase by phrase the record's bytes. -/

namespace Sys2Proof.Machine

/-! ## Bytes and phrases -/

theorem halfBytes_firstHalf {bs : List Byte} (h : 4 ≤ bs.length) : halfBytes (firstHalf bs) = bs.take 4 := by
  match bs, h with
  | _ :: _ :: _ :: _ :: _, _ => rfl

theorem phraseBytes_firstPhrase {bs : List Byte} (h : 8 ≤ bs.length) : phraseBytes (firstPhrase bs) = bs.take 8 := by
  rw [phraseBytes, firstPhrase, halfBytes_firstHalf (by omega), halfBytes_firstHalf (by rw [List.length_drop]; omega)]
  exact (List.take_add (i := 4) (j := 4)).symm

theorem addr_add_ofNat_add (a : Addr) (j k : Nat) :
    a + BitVec.ofNat 32 (j + k) = a + BitVec.ofNat 32 j + BitVec.ofNat 32 k := by
  rw [BitVec.ofNat_add, BitVec.add_assoc]

/-- Bytes written in two parts, the second behind the first. -/
theorem Memory.writeBytes_append (m : Memory) (a : Addr) (xs ys : List Byte) :
    m.writeBytes a (xs ++ ys) = (m.writeBytes a xs).writeBytes (a + BitVec.ofNat 32 xs.length) ys := by
  induction xs generalizing m a with
  | nil => simp [Memory.writeBytes]
  | cons x xs ih =>
    rw [List.cons_append, Memory.writeBytes, ih, List.length_cons, Nat.add_comm, addr_add_ofNat_add]
    rfl

/-! ## PROGRAM8 on erased storage -/

theorem exec_scDone {s : State} (st : Status) (hbusy : s.sc.busy = true) :
    exec (.scDone st) s = .next (s.completeCommand st) := by
  simp [exec, execScDone, hbusy]

theorem State.phraseErased_of {s : State} {a : Addr} (h : ∀ k < 8, s.storByte (a + BitVec.ofNat 32 k) = 0xFF) :
    s.phraseErased a = true := by
  simp only [State.phraseErased, List.all_eq_true, List.mem_range, decide_eq_true_eq]
  exact h

/-- A PROGRAM8 that completes OK on an erased phrase stores it (spec/44_storage.md R231). -/
theorem State.completeCommand_stor_program {s : State} (hop : s.sc.op = .program8)
    (herased : ∀ k < 8, s.storByte (s.sc.addr + BitVec.ofNat 32 k) = 0xFF) :
    (s.completeCommand .ok).stor = s.stor.writeBytes s.sc.addr (phraseBytes s.sc.data) := by
  rw [State.completeCommand_stor, State.arrayEffect, hop]
  simp [State.programEffect, State.phraseErased_of herased]

theorem State.completeCommand_ok_ramReady (s : State) : (s.completeCommand .ok).sc.ramReady = s.sc.ramReady := by
  cases hret : s.cons.waitRet <;>
    simp [State.completeCommand, State.noteStatus, State.afterDone, hret]

/-! ## Phrase by phrase -/

/-- `n` whole phrases are left of the record at work, at an aligned address; each lies in the window and on erased
storage. The window is asked phrase by phrase, for behind the last one the cursor may have wrapped to 0. -/
structure State.PhrasesLeft (s : State) (n : Nat) : Prop where
  running : s.running
  working : s.cons.state = .we
  ramReady : s.sc.ramReady = true
  canonical : s.stor.wf = true
  aligned : s.we.addr.toNat % 8 = 0
  length : s.we.data.length = 8 * n
  fits : 8 * n ≤ 2 ^ 32
  inWindow : ∀ k < n, phraseInWindow s.cfg (s.we.addr + BitVec.ofNat 32 (8 * k)) = true
  erased : ∀ k < 8 * n, s.storByte (s.we.addr + BitVec.ofNat 32 k) = 0xFF

/-- The state after WE_CASE_C has sent its phrase and the command has completed OK. -/
def State.phraseProgrammed (s : State) : State :=
  (issuedProgram (s.advance 8) s.we.addr (firstPhrase s.we.data) .we).completeCommand .ok

@[simp] theorem State.phraseProgrammed_cfg (s : State) : s.phraseProgrammed.cfg = s.cfg := by
  simp [State.phraseProgrammed, issuedProgram]

@[simp] theorem State.phraseProgrammed_host (s : State) : s.phraseProgrammed.host = s.host := by
  simp [State.phraseProgrammed, issuedProgram]

@[simp] theorem State.phraseProgrammed_we (s : State) :
    s.phraseProgrammed.we = { addr := s.we.addr + 8, data := s.we.data.drop 8 } := by
  simp [State.phraseProgrammed, issuedProgram]

section
variable {s : State} {n : Nat} (h : s.PhrasesLeft (n + 1))
include h

theorem State.PhrasesLeft.exec_weCaseC :
    exec .weCaseC s = .next (issuedProgram (s.advance 8) s.we.addr (firstPhrase s.we.data) .we) := by
  have hlen := h.length
  have hwindow : phraseInWindow s.cfg s.we.addr = true := by simpa using h.inWindow 0 (by omega)
  have hcase : s.weCase .caseC :=
    ⟨h.running, h.working, List.ne_nil_of_length_pos (by omega), writeCase_eq_caseC h.aligned (by omega)⟩
  exact (exec_of_weCase hcase).trans (congrArg _ ((s.advance 8).issueProgram8_ready _ _ _ hwindow h.ramReady))

/-- The two steps write the record's next eight bytes. -/
theorem State.PhrasesLeft.phraseProgrammed_stor :
    s.phraseProgrammed.stor = s.stor.writeBytes s.we.addr (s.we.data.take 8) := by
  have hlen := h.length
  rw [← phraseBytes_firstPhrase (by omega)]
  exact State.completeCommand_stor_program rfl fun k hk => h.erased k (by omega)

/-- The two steps leave one phrase less, and the storage behind the phrase as it was. -/
theorem State.PhrasesLeft.phraseProgrammed : s.phraseProgrammed.PhrasesLeft n where
  running := by simpa using h.running
  working := State.completeCommand_state _ _
  ramReady := (State.completeCommand_ok_ramReady _).trans h.ramReady
  canonical := by rw [h.phraseProgrammed_stor]; exact Memory.wf_writeBytes h.canonical _ _
  aligned := by
    have haligned := h.aligned
    rw [State.phraseProgrammed_we]
    bv_omega
  length := by simp [h.length, Nat.mul_succ]
  fits := by have hfits := h.fits; omega
  inWindow k hk := by
    have hwindow := h.inWindow (k + 1) (by omega)
    rw [Nat.mul_succ, Nat.add_comm, addr_add_ofNat_add] at hwindow
    simpa using hwindow
  erased k hk := by
    have hfits := h.fits
    have haddr : s.phraseProgrammed.we.addr + BitVec.ofNat 32 k = s.we.addr + BitVec.ofNat 32 (8 + k) := by
      rw [State.phraseProgrammed_we, addr_add_ofNat_add]; rfl
    have hbehind : (s.we.data.take 8).length ≤ (s.we.addr + BitVec.ofNat 32 (8 + k) - s.we.addr).toNat := by
      rw [add_sub_cancel_left, BitVec.toNat_ofNat, Nat.mod_eq_of_lt (by omega), List.length_take]
      omega
    rw [haddr, State.storByte, h.phraseProgrammed_stor, Memory.read_writeBytes_other _ _ _ _ hbehind]
    exact h.erased (8 + k) (by omega)

end

theorem execAll_cons {i : Instr} {s t : State} (h : exec i s = .next t) (is : List Instr) :
    execAll (i :: is) s = execAll is t := by
  simp [execAll, h]

/-- A record of whole phrases is written as it stands, one phrase after the other. -/
theorem State.PhrasesLeft.execAll_writes {s : State} {n : Nat} (h : s.PhrasesLeft n) :
    ∃ t, execAll ((List.replicate n [Instr.weCaseC, .scDone .ok]).flatten ++ [.weFinish]) s = .next t ∧
      t.stor = s.stor.writeBytes s.we.addr s.we.data ∧ t.cons.state = .idle := by
  induction n generalizing s with
  | zero =>
    have hdata : s.we.data = [] := List.eq_nil_of_length_eq_zero h.length
    refine ⟨_, execAll_cons (weFinishReturnsToIdle s h.running h.working hdata) [], ?_, rfl⟩
    rw [hdata]; rfl
  | succ n ih =>
    obtain ⟨t, hrun, hstor, hidle⟩ := ih h.phraseProgrammed
    refine ⟨t, ?_, ?_, hidle⟩
    · rw [← hrun, List.replicate_succ, List.flatten_cons]
      exact (execAll_cons h.exec_weCaseC _).trans (execAll_cons (exec_scDone .ok rfl) _)
    · have hlen := h.length
      rw [hstor, h.phraseProgrammed_stor, State.phraseProgrammed_we]
      conv_rhs => rw [← List.take_append_drop 8 s.we.data, Memory.writeBytes_append]
      simp [hlen]

/-- Settles O33: the record is written as it stands, and reading bytes written gives them, and every other as before. -/
theorem alignedRecordIsProgrammedExactly : Obligations.AlignedRecordIsProgrammedExactly := by
  intro n s hwf hrun hwe hram hcanonical haligned hlen hlo hhi herased
  obtain ⟨-, -, htop⟩ := window_of_wf hwf
  have hleft : s.PhrasesLeft n :=
    { running := hrun, working := hwe, ramReady := hram, canonical := hcanonical, aligned := haligned, length := hlen
      fits := by omega
      inWindow := fun k hk => by
        rw [phraseInWindow_iff, BitVec.toNat_add, BitVec.toNat_ofNat]
        omega
      erased := herased }
  obtain ⟨t, hexec, hstor, hidle⟩ := hleft.execAll_writes
  refine ⟨t, hexec, fun k hk => ?_, fun a ha => ?_, hidle⟩
  · rw [State.storByte, hstor, Memory.read_writeBytes_same hcanonical _ _ _ (by omega) (by omega)]
    simp [hlen, hk]
  · rw [State.storByte, hstor, Memory.read_writeBytes_other _ _ _ _ (by omega)]
    rfl

end Sys2Proof.Machine
end

section
/-! Completions of storage commands (spec/44_storage.md R231 to R235): the reaction common to every completion, what each
command does to the array with each status, and how the bytes of its target then read. -/

namespace Sys2Proof.Machine

/-! ## The reaction to a completion -/

/-- A command's effect reaches the array and the count of draws only. -/
theorem State.arrayEffect_eq (s : State) (st : Status) :
    s.arrayEffect st = { s with stor := (s.arrayEffect st).stor, draws := (s.arrayEffect st).draws } := by
  unfold State.arrayEffect State.programEffect State.eraseEffect
  split
  · split
    · rfl
    · rfl
  · split
    · rfl
    · rfl

/-- SC_DONE's body, written out (spec/44_storage.md R233). -/
theorem State.completeCommand_eq (s : State) (st : Status) :
    s.completeCommand st = completed s st (s.arrayEffect st).stor (s.arrayEffect st).draws := by
  rw [State.completeCommand, State.commandEffect, State.arrayEffect_eq]
  cases st with
  | ok =>
    cases hret : s.cons.waitRet <;>
      simp [State.noteStatus, State.afterDone, State.emitTransferDone, completed, hret]
  | fail =>
    rw [State.noteStatus, State.raise_storageFail]
    cases hret : s.cons.waitRet <;>
      simp [State.afterDone, State.emitTransferDone, completed, hret, satInc, satAdd]

theorem exec_scProgram8 {s : State} (st : Status) (hbusy : s.sc.busy = true) (hop : s.sc.op = .program8) :
    exec (.scProgram8 st) s = .next (s.completeCommand st) :=
  (if_pos hbusy).trans (attempt_of hop _ _)

theorem exec_scEraseSector {s : State} (st : Status) (hbusy : s.sc.busy = true) (hop : s.sc.op = .eraseSector) :
    exec (.scEraseSector st) s = .next (s.completeCommand st) :=
  (if_pos hbusy).trans (attempt_of hop _ _)

/-- SC_DONE, or the row of the outstanding command, completes it. -/
theorem exec_completes_program {s : State} {st : Status} {i : Instr} (hi : i = .scDone st ∨ i = .scProgram8 st)
    (hbusy : s.sc.busy = true) (hop : s.sc.op = .program8) : exec i s = .next (s.completeCommand st) := by
  rcases hi with rfl | rfl
  · exact exec_scDone st hbusy
  · exact exec_scProgram8 st hbusy hop

theorem exec_completes_erase {s : State} {st : Status} {i : Instr} (hi : i = .scDone st ∨ i = .scEraseSector st)
    (hbusy : s.sc.busy = true) (hop : s.sc.op = .eraseSector) : exec i s = .next (s.completeCommand st) := by
  rcases hi with rfl | rfl
  · exact exec_scDone st hbusy
  · exact exec_scEraseSector st hbusy hop

/-! ## What each command does to the array -/

theorem State.arrayEffect_program_stored {s : State} (hop : s.sc.op = .program8)
    (herased : ∀ k < 8, s.storByte (s.sc.addr + BitVec.ofNat 32 k) = 0xFF) :
    s.arrayEffect .ok = { s with stor := s.stor.writeBytes s.sc.addr (phraseBytes s.sc.data) } := by
  rw [State.arrayEffect, hop]
  exact if_pos ⟨rfl, State.phraseErased_of herased⟩

theorem State.storByte_of_phraseErased {s : State} {a : Addr} (h : s.phraseErased a = true) {k : Nat} (hk : k < 8) :
    s.storByte (a + BitVec.ofNat 32 k) = 0xFF := by
  simp only [State.phraseErased, List.all_eq_true, List.mem_range, decide_eq_true_eq] at h
  exact h k hk

/-- A PROGRAM8 that fails, or meets a byte that is not erased, leaves its phrase to draws (spec/44_storage.md R231). -/
theorem State.arrayEffect_program_drawn {s : State} {st : Status} (hop : s.sc.op = .program8)
    (hdrawn : st = .fail ∨ ∃ k < 8, s.storByte (s.sc.addr + BitVec.ofNat 32 k) ≠ 0xFF) :
    s.arrayEffect st = s.drawStorage s.sc.addr 8 := by
  rw [State.arrayEffect, hop]
  refine if_neg ?_
  rintro ⟨rfl, herased⟩
  obtain hfail | ⟨k, hk, hne⟩ := hdrawn
  · cases hfail
  · exact hne (State.storByte_of_phraseErased herased hk)

theorem State.arrayEffect_erase_ok {s : State} (hop : s.sc.op = .eraseSector) :
    s.arrayEffect .ok = { s with stor := s.stor.eraseRange s.sc.addr s.cfg.sectorSize } := by
  rw [State.arrayEffect, hop]
  rfl

theorem State.arrayEffect_erase_fail {s : State} (hop : s.sc.op = .eraseSector) :
    s.arrayEffect .fail = s.drawStorage s.sc.addr s.cfg.sectorSize := by
  rw [State.arrayEffect, hop]
  rfl

/-! ## How the target reads -/

theorem inRange_toNat (a b : Addr) (n : Nat) : inRange a n b.toNat = true ↔ (b - a).toNat < n := by
  simp [inRange]

/-- A sector is no larger than the address space (spec/00_scope.md R10). -/
theorem sectorSize_le {c : Config} (hwf : c.wf = true) : c.sectorSize ≤ 2 ^ 32 := by
  obtain ⟨-, hlen, htop⟩ := window_of_wf hwf
  have hpos : 0 < c.regionLen.toNat := by
    simp only [Config.wf, Bool.and_eq_true, decide_eq_true_eq] at hwf
    obtain ⟨⟨⟨⟨⟨⟨⟨⟨⟨⟨-, -⟩, hpos⟩, -⟩, -⟩, -⟩, -⟩, -⟩, -⟩, -⟩, -⟩ := hwf
    exact hpos
  have hsector := Nat.le_of_dvd hpos (Nat.dvd_of_mod_eq_zero hlen)
  omega

/-- Each drawn byte is the next draw of the run (spec/44_storage.md R235, log 6). -/
theorem State.read_drawStorage {s : State} (hcanonical : s.stor.wf = true) (a : Addr) {n k : Nat} (hn : n ≤ 2 ^ 32)
    (hk : k < n) :
    (s.drawStorage a n).stor.read (a + BitVec.ofNat 32 k).toNat = Config.drawByte (s.draws + k) := by
  rw [State.drawStorage_stor, Memory.read_writeBytes_same hcanonical _ _ _ (by simpa using hk) (by simpa using hn)]
  simp [drawBytes]

/-- A completion whose effect is a draw of the `n` bytes from the command's address. -/
theorem completion_draws {answer : Host.Outcome State Fault Refusal} {s : State} {st : Status} {n : Nat}
    (hanswer : answer = .next (s.completeCommand st)) (hcanonical : s.stor.wf = true)
    (heffect : s.arrayEffect st = s.drawStorage s.sc.addr n) :
    ∃ m : Memory, answer = .next (completed s st m (s.draws + n)) ∧ m.wf = true ∧
      (n ≤ 2 ^ 32 → ∀ k < n, m.read (s.sc.addr + BitVec.ofNat 32 k).toNat = Config.drawByte (s.draws + k)) ∧
      ∀ a : Addr, n ≤ (a - s.sc.addr).toNat → m.read a.toNat = s.stor.read a.toNat := by
  refine ⟨(s.drawStorage s.sc.addr n).stor, ?_, State.StorageInv.drawStorage hcanonical _ _,
    fun hn k hk => State.read_drawStorage hcanonical _ hn hk, fun a ha => s.drawStorage_storByte_other ha⟩
  rw [hanswer, State.completeCommand_eq, heffect, State.drawStorage_draws]

/-! ## The three statements -/

/-- Settles O34: the bytes written read back, and every other as before. -/
theorem completedProgramStoresThePhrase : Obligations.CompletedProgramStoresThePhrase := by
  intro s i hi hbusy hop hcanonical herased
  refine ⟨s.stor.writeBytes s.sc.addr (phraseBytes s.sc.data), ?_, Memory.wf_writeBytes hcanonical _ _,
    fun k hk => ?_, fun a ha => Memory.read_writeBytes_other _ _ _ _ ha⟩
  · rw [exec_completes_program hi hbusy hop, State.completeCommand_eq, State.arrayEffect_program_stored hop herased]
  · rw [Memory.read_writeBytes_same hcanonical _ _ _ hk (by simp)]
    exact (List.getD_eq_getElem _ _ _).symm

/-- Settles O35: the sector's bytes are unlisted, and every other reads as before. -/
theorem completedEraseClearsTheSector : Obligations.CompletedEraseClearsTheSector := by
  intro s i hi hbusy hop hcanonical
  refine ⟨s.stor.eraseRange s.sc.addr s.cfg.sectorSize, ?_, Memory.wf_eraseRange hcanonical _ _,
    fun a ha => ?_, fun a ha => ?_⟩
  · rw [exec_completes_erase hi hbusy hop, State.completeCommand_eq, State.arrayEffect_erase_ok hop]
  · rw [Memory.read_eraseRange, if_pos ((inRange_toNat _ _ _).2 ha)]
    rfl
  · rw [Memory.read_eraseRange, if_neg (mt (inRange_toNat _ _ _).1 (by omega))]

/-- Settles O36: in each case the command's effect is a draw of its target. -/
theorem drawsReachOnlyTheTarget : Obligations.DrawsReachOnlyTheTarget := by
  intro s hbusy hcanonical
  refine ⟨fun st i hi hop hdrawn => ?_, fun i hi hop => ?_⟩
  · obtain ⟨m, hexec, hwf, hread, hframe⟩ := completion_draws (exec_completes_program hi hbusy hop) hcanonical
      (State.arrayEffect_program_drawn hop hdrawn)
    exact ⟨m, hexec, hwf, hread (by omega), hframe⟩
  · obtain ⟨m, hexec, hwf, hread, hframe⟩ := completion_draws (exec_completes_erase hi hbusy hop) hcanonical
      (State.arrayEffect_erase_fail hop)
    exact ⟨m, hexec, hwf, fun hcfg => hread (sectorSize_le hcfg), hframe⟩

end Sys2Proof.Machine
end

section
/-! The storage controller's duties (spec/44_storage.md R233, spec/60_exceptions.md R294): no completion without a
command, and under weak fairness one for every command. -/

namespace Sys2Proof.Machine

/-- A completion that nobody waits for is refused (spec/44_storage.md R233, log 9). -/
theorem exec_sc_unsolicited {s : State} {st : Status} {i : Instr}
    (hi : i = .scDone st ∨ i = .scProgram8 st ∨ i = .scEraseSector st) (hfree : s.sc.busy = false) :
    exec i s = .next (s.refuse .unsolicitedDone) := by
  rcases hi with rfl | rfl | rfl
  · simp [exec, execScDone, hfree]
  · simp [exec, execScProgram8, hfree]
  · simp [exec, execScEraseSector, hfree]

/-- While the command stays outstanding the storage controller stays enabled, so its owed step comes, and that step
ends the command. -/
theorem WeaklyFair.command_ends {events : Nat → Event} {run : Nat → State} (hfair : WeaklyFair events run)
    (hrun : IsRun events run) {n : Nat} (hbusy : (run n).sc.busy = true) : ∃ m, n < m ∧ (run m).sc.busy = false := by
  by_contra hnever
  have hstays : ∀ m, n ≤ m → (run m).enabled .sc := fun m hm => by
    rcases hm.eq_or_lt with rfl | hlt
    · exact hbusy
    · exact Bool.eq_true_of_not_eq_false fun hfree => hnever ⟨m, hlt, hfree⟩
  obtain ⟨m, hm, hmoves⟩ := hfair .sc n hstays
  exact hnever ⟨m + 1, by omega, State.movesFor_sc (hstays m hm) hmoves (hrun m)⟩

/-- Settles O37: each of the three operations asks first for a command, and fairness owes the completion. -/
theorem unsolicitedCompletionIsRefusedAndOwedOneComes : Obligations.UnsolicitedCompletionIsRefusedAndOwedOneComes :=
  ⟨fun _ _ _ hi hfree => exec_sc_unsolicited hi hfree, fun _ _ hrun hfair _ hbusy => hfair.command_ends hrun hbusy⟩

end Sys2Proof.Machine
end

section
/-! The erase of the window (spec/44_storage.md R240 to R242): ERASE_REGION starts it, and each ERASE_STEP sends one
sector's command or ends it. -/

namespace Sys2Proof.Machine

theorem State.startErase_off {s : State} (hoff : s.cons.state = .off) : s.startErase = { s with
    sc := { s.sc with eraseIdx := 0, eraseFail := false }, cons := { s.cons with state := .erase } } :=
  if_pos hoff

theorem State.startErase_refused {s : State} (hon : s.cons.state ≠ .off) :
    s.startErase = s.refuse .eraseRegionNotOff :=
  if_neg hon

theorem exec_eraseRegion {s : State} (hrun : s.running) : exec .eraseRegion s = .next s.startErase :=
  attempt_of hrun _ _

/-- Settles O38: the two branches of the step, which is enabled. -/
theorem eraseRegionStartsOrIsRefused : Obligations.EraseRegionStartsOrIsRefused := by
  intro s hrun
  rw [exec_eraseRegion hrun]
  exact ⟨fun hoff => congrArg _ (State.startErase_off hoff), fun hon => congrArg _ (State.startErase_refused hon)⟩

theorem State.eraseNext_sector {s : State} (hleft : s.sc.eraseIdx < sectorCount s.cfg) :
    s.eraseNext = s.scIssue .eraseSector s.eraseAddr erasedPhrase .erase :=
  if_pos hleft

theorem State.eraseNext_end {s : State} (hdone : sectorCount s.cfg ≤ s.sc.eraseIdx) :
    s.eraseNext = { s with cons := { s.cons with
      state := if s.cons.runEnabled = true then .idle else .off } }.emitEraseDone
        (if s.sc.eraseFail = true then .fail else .ok) :=
  if_neg (Nat.not_lt.2 hdone)

theorem exec_eraseStep {s : State} (hrun : s.running) (herase : s.cons.state = .erase) :
    exec .eraseStep s = .next s.eraseNext :=
  attempt_of ⟨hrun, herase⟩ _ _

/-- Settles O39: SC_ISSUE's two outcomes while sectors are left, and then the end of the erase. -/
theorem eraseStepSequencesTheWindow : Obligations.EraseStepSequencesTheWindow := by
  rintro s _ _ hrun herase rfl rfl
  rw [exec_eraseStep hrun herase]
  refine ⟨fun hleft hram => ?_, fun hleft hram => ?_, fun hdone => ?_⟩
  · rw [State.eraseNext_sector hleft, State.scIssue_ready _ _ _ _ _ hram]
    rfl
  · rw [State.eraseNext_sector hleft, State.scIssue_fault _ _ _ _ _ hram]
  · rw [State.eraseNext_end hdone]
    rfl

end Sys2Proof.Machine
end

section
/-! When each operation is enabled, said once (spec/60_exceptions.md R294, log 7): an operation that is not enabled
moves nothing, and after the jump none is but SC_DONE (R285). -/

namespace Sys2Proof.Machine

/-! ## The enable condition of each operation -/

/-- The state admits the operation: its enable condition, and for a row that names a part of a step that the step runs
that part. A completion that nobody waits for is refused (spec/44_storage.md R233), which is no move withheld. -/
def State.admits (s : State) : Instr → Prop
  | .bqPush _ => s.rxArmed ∧ ¬ s.rxMasked ∧ s.rxHold = []
  | .rxHold _ => s.rxArmed ∧ (s.rxMasked ∨ s.rxHold ≠ [])
  | .rxRelease => s.running ∧ ¬ s.rxMasked ∧ s.rxHold ≠ []
  | .bqSync _ => s.running ∧ s.cfg.bqStaleView = true ∧ (s.bq.rdSeen ≠ s.bq.rd ∨ s.bq.wrSeen ≠ s.bq.wr)
  | .bqPop => s.bytePath
  | .laAppend => s.bytePath ∧ s.headLineOp = .append
  | .laOverflow => s.bytePath ∧ s.headLineOp = .overflow
  | .laEolEmit | .rqPush => s.bytePath ∧ s.headLineOp = .eolEmit
  | .laEolNoise => s.bytePath ∧ s.headLineOp = .eolNoise
  | .rqPop | .parse | .weRecord => s.linePath
  | .weEnd => s.linePath ∧ s.headEnds = true
  | .recData16 text => s.linePath ∧ s.headLine = s.cfg.marker :: s.cfg.kinds.data16 :: text
  | .recData24 text => s.linePath ∧ s.headLine = s.cfg.marker :: s.cfg.kinds.data24 :: text
  | .recData32 text => s.linePath ∧ s.headLine = s.cfg.marker :: s.cfg.kinds.data32 :: text
  | .recEnd32 text => s.linePath ∧ s.headLine = s.cfg.marker :: s.cfg.kinds.end32 :: text
  | .recEnd24 text => s.linePath ∧ s.headLine = s.cfg.marker :: s.cfg.kinds.end24 :: text
  | .recEnd16 text => s.linePath ∧ s.headLine = s.cfg.marker :: s.cfg.kinds.end16 :: text
  | .recOther line => s.linePath ∧ s.headLine = line ∧ (parseLine s.cfg line).kind = .other
  | .weCaseA => s.weCase .caseA
  | .weCaseB => s.weCase .caseB
  | .weCaseC => s.weCase .caseC
  | .weSkip => s.weCase .skip
  | .weFinish => s.running ∧ s.cons.state = .we ∧ s.we.data = []
  | .scProgram8 _ => s.sc.busy = true → s.sc.op = .program8
  | .scEraseSector _ => s.sc.busy = true → s.sc.op = .eraseSector
  | .scDone _ => True
  | .eraseRegion => s.running
  | .eraseStep => s.running ∧ s.cons.state = .erase
  | .sessionInit => s.running ∧ s.sessionReady
  | .ctlRamReady => s.host.state ≠ .idle ∧ s.host.state ≠ .app
  | .ctlRun => s.host.state = .loop

/-- An operation that is not enabled moves nothing (log 7). -/
theorem exec_of_not_admits {s : State} {i : Instr} (h : ¬ s.admits i) : exec i s = .next s := by
  cases i
  case scDone => exact absurd trivial h
  case scProgram8 =>
    obtain ⟨hbusy, hop⟩ := Classical.not_imp.1 h
    exact (if_pos hbusy).trans (attempt_not hop _ _)
  case scEraseSector =>
    obtain ⟨hbusy, hop⟩ := Classical.not_imp.1 h
    exact (if_pos hbusy).trans (attempt_not hop _ _)
  all_goals
    refine attempt_not ?_ _ _
    exact h

/-! ## After the jump -/

/-- In `H_APP` no operation is admitted but the completions (spec/60_exceptions.md R285). -/
theorem State.running_of_admits {s : State} {i : Instr} (hi : agentOf i ≠ .sc) (h : s.admits i) : s.running := by
  cases i
  case bqPush | rxHold =>
    obtain ⟨⟨-, happ⟩, -⟩ := h
    exact happ
  case laAppend | laOverflow | laEolEmit | rqPush | laEolNoise | weEnd | recData16 | recData24 | recData32 | recEnd32
      | recEnd24 | recEnd16 | recOther =>
    obtain ⟨⟨hrun, -⟩, -⟩ := h
    exact hrun
  case rxRelease | bqSync | bqPop | rqPop | parse | weRecord | weCaseA | weCaseB | weCaseC | weSkip | weFinish
      | eraseStep | sessionInit =>
    obtain ⟨hrun, -⟩ := h
    exact hrun
  case eraseRegion => exact h
  case ctlRamReady =>
    obtain ⟨-, happ⟩ := h
    exact happ
  case ctlRun =>
    intro happ
    cases happ.symm.trans h
  case scDone | scProgram8 | scEraseSector => exact absurd rfl hi

/-- Settles O51: every other operation needs the HOST short of `H_APP`. -/
theorem nothingMovesAfterTheJump : Obligations.NothingMovesAfterTheJump := by
  intro s i happ hother
  have hi : agentOf i ≠ .sc := fun hsc => by
    obtain ⟨st, hst⟩ := agentOf_sc hsc
    obtain ⟨hdone, hprogram, herase⟩ := hother st
    rcases hst with h | h | h
    · exact hdone h
    · exact hprogram h
    · exact herase h
  exact exec_of_not_admits fun h => s.running_of_admits hi h happ

/-! ## The Line Assembler's rows -/

section
variable {c : Config} {la : LineAssembler} {b : Byte}

theorem lineOp_ne_append (h : b = c.newline ∨ la.skip = true ∨ la.buf.length = c.lineMax) :
    lineOp c la b ≠ .append := by
  rcases lineOp_cases c la b with ⟨hb, hskip, hroom, -⟩ | ⟨-, -, hop⟩ | ⟨-, -, -, hop⟩ | ⟨-, -, hop⟩
  case inl => exact absurd h (by simp [hb, hskip, hroom])
  all_goals simp [hop]

theorem lineOp_ne_overflow (h : b = c.newline ∨ la.skip = false ∧ la.buf.length ≠ c.lineMax) :
    lineOp c la b ≠ .overflow := by
  rcases lineOp_cases c la b with ⟨-, -, -, hop⟩ | ⟨hb, hskip | hfull, -⟩ | ⟨-, -, -, hop⟩ | ⟨-, -, hop⟩
  case inr.inl.inl => exact absurd h (by simp [hb, hskip])
  case inr.inl.inr => exact absurd h (by simp [hb, hfull])
  all_goals simp [hop]

theorem lineOp_ne_eolEmit (h : b ≠ c.newline ∨ la.skip = true ∨ la.buf.head? ≠ some c.marker) :
    lineOp c la b ≠ .eolEmit := by
  rcases lineOp_cases c la b with ⟨-, -, -, hop⟩ | ⟨-, -, hop⟩ | ⟨hb, hskip, hmarker, -⟩ | ⟨-, -, hop⟩
  case inr.inr.inl => exact absurd h (by simp [hb, hskip, hmarker])
  all_goals simp [hop]

theorem lineOp_ne_eolNoise (h : b ≠ c.newline ∨ la.skip = false ∧ la.buf.head? = some c.marker) :
    lineOp c la b ≠ .eolNoise := by
  rcases lineOp_cases c la b with ⟨-, -, -, hop⟩ | ⟨-, -, hop⟩ | ⟨-, -, -, hop⟩ | ⟨hb, hskip | hmarker, -⟩
  case inr.inr.inr.inl => exact absurd h (by simp [hb, hskip])
  case inr.inr.inr.inr => exact absurd h (by simp [hb, hmarker])
  all_goals simp [hop]

end

/-- A row of a Line Assembler operation is admitted where BQ_POP runs that operation. -/
theorem State.admits_lineRow {s : State} {op : LineOp} {i : Instr} (hrow : i ∈ op.rows) :
    s.admits i ↔ s.bytePath ∧ s.headLineOp = op := by
  cases op
  case append | overflow | eolNoise =>
    obtain rfl := List.mem_singleton.1 hrow
    rfl
  case eolEmit =>
    rcases List.mem_pair.1 hrow with rfl | rfl
    · rfl
    · rfl

/-- Where BQ_POP would run another operation, the row does not move. -/
theorem exec_lineRow_of_ne {s : State} {op : LineOp} {i : Instr} (hrow : i ∈ op.rows) (hop : s.headLineOp ≠ op) :
    exec i s = .next s :=
  exec_of_not_admits fun h => by
    obtain ⟨-, hsame⟩ := (State.admits_lineRow hrow).1 h
    exact hop hsame

theorem State.not_bytePath {s : State}
    (h : s.cons.state ≠ .idle ∨ s.seenByCons = 0 ∨ s.cfg.consOrder = .linesFirst ∧ s.rq ≠ []) : ¬ s.bytePath := by
  rintro ⟨-, hidle, hpos, horder⟩
  rcases h with hbusy | hempty | ⟨hmode, hqueued⟩
  · exact hbusy hidle
  · exact hpos.ne' hempty
  · exact hqueued (horder hmode)

/-- The operations of the byte path: BQ_POP and the rows of its parts (spec/41_line_assembler.md R150). -/
def byteRows : List Instr := [.bqPop, .laAppend, .laOverflow, .laEolEmit, .laEolNoise, .rqPush]

theorem State.bytePath_of_admits {s : State} {i : Instr} (hi : i ∈ byteRows) (h : s.admits i) : s.bytePath := by
  simp only [byteRows, List.mem_cons, List.not_mem_nil, or_false] at hi
  rcases hi with rfl | rfl | rfl | rfl | rfl | rfl
  case inl => exact h
  all_goals exact h.1

/-! ## The rows of a queued line -/

theorem State.not_linePath {s : State}
    (h : s.cons.state ≠ .idle ∨ s.rq = [] ∨ s.cfg.consOrder = .bytesFirst ∧ 0 < s.seenByCons) : ¬ s.linePath := by
  rintro ⟨-, hidle, hqueued, horder⟩
  rcases h with hbusy | hempty | ⟨hmode, hpos⟩
  · exact hbusy hidle
  · exact hqueued hempty
  · exact hpos.ne' (horder hmode)

/-- The operations of the line path: RQ_POP and the rows of its parts (spec/41_line_assembler.md R158). -/
def lineRows (text : List Byte) : List Instr :=
  [.rqPop, .parse, .weRecord, .weEnd, .recData16 text, .recData24 text, .recData32 text, .recEnd32 text,
    .recEnd24 text, .recEnd16 text, .recOther text]

theorem State.linePath_of_admits {s : State} {text : List Byte} {i : Instr} (hi : i ∈ lineRows text)
    (h : s.admits i) : s.linePath := by
  simp only [lineRows, List.mem_cons, List.not_mem_nil, or_false] at hi
  rcases hi with rfl | rfl | rfl | rfl | rfl | rfl | rfl | rfl | rfl | rfl | rfl
  case inl | inr.inl | inr.inr.inl => exact h
  all_goals exact h.1

theorem State.head?_of_headLine {s : State} (path : s.linePath) {line : List Byte} (hhead : s.headLine = line) :
    s.rq.head? = some line := by
  obtain ⟨-, -, hqueued, -⟩ := path
  subst hhead
  cases hrq : s.rq with
  | nil => exact absurd hrq hqueued
  | cons line rest => simp [State.headLine, hrq]

/-- The row of a kind digit is admitted only with its line at the head of the Record Queue. -/
theorem State.head?_of_admits_kindRow {s : State} {text : List Byte} {d : Byte} {i : Instr}
    (hi : (d, i) ∈ [(s.cfg.kinds.data16, Instr.recData16 text), (s.cfg.kinds.data24, .recData24 text),
      (s.cfg.kinds.data32, .recData32 text), (s.cfg.kinds.end32, .recEnd32 text),
      (s.cfg.kinds.end24, .recEnd24 text), (s.cfg.kinds.end16, .recEnd16 text)]) (h : s.admits i) :
    s.rq.head? = some (s.cfg.marker :: d :: text) := by
  simp only [List.mem_cons, List.not_mem_nil, or_false, Prod.mk.injEq] at hi
  rcases hi with ⟨rfl, rfl⟩ | ⟨rfl, rfl⟩ | ⟨rfl, rfl⟩ | ⟨rfl, rfl⟩ | ⟨rfl, rfl⟩ | ⟨rfl, rfl⟩
  all_goals
    obtain ⟨path, hhead⟩ := h
    exact State.head?_of_headLine path hhead

theorem not_mem_kinds_of_kindOf {c : Config} {d : Byte} (h : c.kindOf d = .other) : d ∉ c.kinds.toList := by
  rcases kindOf_cases c d with ⟨-, hk⟩ | ⟨-, hk⟩ | ⟨-, hk⟩ | ⟨-, hk⟩ | ⟨-, hk⟩ | ⟨-, hk⟩ | ⟨hd, -⟩
  case inr.inr.inr.inr.inr.inr => exact hd
  all_goals cases hk.symm.trans h

/-- A line of no record kind is one that no kind row takes (spec/42_record_parser.md R184). -/
theorem otherLine_of_lineKind {c : Config} {line : List Byte} (h : lineKind c line = .other) :
    otherLine c line = true := by
  rcases line with _ | ⟨m, _ | ⟨d, t⟩⟩
  · rfl
  · rfl
  · by_cases hm : m = c.marker
    · subst hm
      rw [lineKind_marker] at h
      simp [otherLine, not_mem_kinds_of_kindOf h]
    · simp [otherLine, hm]

/-- REC_OTHER is admitted only with its line at the head of the Record Queue, and only for a line of no kind row. -/
theorem State.of_admits_recOther {s : State} {line : List Byte} (h : s.admits (.recOther line)) :
    s.rq.head? = some line ∧ otherLine s.cfg line = true := by
  obtain ⟨path, hhead, hkind⟩ := h
  exact ⟨State.head?_of_headLine path hhead, otherLine_of_lineKind (by rwa [← parseLine_kind])⟩

/-- WE_END is admitted only for a valid end record. -/
theorem State.of_admits_weEnd {s : State} (h : s.admits .weEnd) {line : List Byte} (hhead : s.rq.head? = some line) :
    isEnd (parseLine s.cfg line).kind = true ∧ (parseLine s.cfg line).valid = true := by
  obtain ⟨path, hends⟩ := h
  obtain rfl := Option.some.inj ((State.head?_of_headLine path rfl).symm.trans hhead)
  exact Bool.and_eq_true_iff.1 hends

/-! ## The write steps -/

theorem State.we_of_admits {s : State} {i : Instr} (hi : i ∈ [Instr.weCaseA, .weCaseB, .weCaseC, .weSkip, .weFinish])
    (h : s.admits i) : s.cons.state = .we := by
  simp only [List.mem_cons, List.not_mem_nil, or_false] at hi
  rcases hi with rfl | rfl | rfl | rfl | rfl
  all_goals
    obtain ⟨-, hwe, -⟩ := h
    exact hwe

/-! ## The statement -/

/-- Settles O50: each clause breaks a part of the operation's enable condition. -/
theorem notEnabledMovesNothing : Obligations.NotEnabledMovesNothing := by
  rintro s _ rfl
  refine ⟨fun b hoff => ?push, fun b hoff => ?hold, fun hoff => ?release, fun side hoff => ?sync,
    fun hoff i hi => ?bytePath, fun hoff => ?append, fun hoff => ?overflow, fun hoff => ?emit, fun hoff => ?noise,
    fun hoff text i hi => ?linePath, fun text d i hi hhead => ?kindRow, fun line hoff => ?other,
    fun line hhead hoff => ?weEnd, fun hoff i hi => ?write, fun st hbusy hop => ?program, fun st hbusy hop => ?erase,
    fun hoff => ?eraseStep, fun hoff => ?session, fun hidle => ?ramReady, fun hoff => ?run⟩
  case push =>
    refine exec_of_not_admits fun ⟨⟨hinit, happ⟩, hopen, hfirst⟩ => ?_
    rcases hoff with h | h | h | h
    · exact hinit h
    · exact happ h
    · exact hopen h
    · exact h hfirst
  case hold =>
    refine exec_of_not_admits fun ⟨⟨hinit, happ⟩, hwait⟩ => ?_
    rcases hoff with h | h | ⟨hfree, hnone⟩
    · exact hinit h
    · exact happ h
    · exact hwait.elim (by simp [hfree]) (absurd hnone)
  case release => exact exec_of_not_admits fun ⟨_, hopen, hheld⟩ => hoff.elim hopen hheld
  case sync =>
    refine exec_of_not_admits fun ⟨_, hstale, hbehind⟩ => ?_
    rcases hoff with h | ⟨hrd, hwr⟩
    · simp [hstale] at h
    · exact hbehind.elim (absurd hrd) (absurd hwr)
  case bytePath => exact exec_of_not_admits fun h => State.not_bytePath hoff (State.bytePath_of_admits hi h)
  case append => exact exec_lineRow_of_ne (op := .append) (by simp [LineOp.rows]) (lineOp_ne_append hoff)
  case overflow => exact exec_lineRow_of_ne (op := .overflow) (by simp [LineOp.rows]) (lineOp_ne_overflow hoff)
  case emit =>
    have hop : s.headLineOp ≠ .eolEmit := lineOp_ne_eolEmit hoff
    exact ⟨exec_lineRow_of_ne (by simp [LineOp.rows]) hop, exec_lineRow_of_ne (by simp [LineOp.rows]) hop⟩
  case noise => exact exec_lineRow_of_ne (op := .eolNoise) (by simp [LineOp.rows]) (lineOp_ne_eolNoise hoff)
  case linePath => exact exec_of_not_admits fun h => State.not_linePath hoff (State.linePath_of_admits hi h)
  case kindRow => exact exec_of_not_admits fun h => hhead (State.head?_of_admits_kindRow hi h)
  case other =>
    refine exec_of_not_admits fun h => ?_
    obtain ⟨hhead, hother⟩ := State.of_admits_recOther h
    exact hoff.elim (absurd hhead) (by simp [hother])
  case weEnd =>
    refine exec_of_not_admits fun h => ?_
    obtain ⟨hend, hvalid⟩ := State.of_admits_weEnd h hhead
    exact hoff.elim (by simp [hend]) (by simp [hvalid])
  case write => exact exec_of_not_admits fun h => hoff (State.we_of_admits hi h)
  case program => exact exec_of_not_admits fun h => by cases hop.symm.trans (h hbusy)
  case erase => exact exec_of_not_admits fun h => by cases hop.symm.trans (h hbusy)
  case eraseStep => exact exec_of_not_admits fun ⟨_, herase⟩ => hoff herase
  case session =>
    exact exec_of_not_admits fun ⟨_, hfree, hnone⟩ => hoff.elim (by simp [hfree]) (absurd hnone)
  case ramReady => exact exec_of_not_admits fun ⟨hne, _⟩ => hne hidle
  case run => exact exec_of_not_admits hoff

end Sys2Proof.Machine
end

section
/-! The HOST's bootloader state machine, step by step (spec/60_exceptions.md R280 to R287). -/

namespace Sys2Proof.Machine

/-! ## A HOST step from the schedule -/

theorem step_hostStep {s : State} (hwf : s.cfg.wf = true) {rest : List Event} (hsched : s.sched = .hostStep :: rest) :
    step s = .next { s with sched := rest }.hostStep := by
  rw [step_cons hwf hsched]
  rfl

theorem step_bootSel {s : State} (hwf : s.cfg.wf = true) {level : Bool} {rest : List Event}
    (hsched : s.sched = .bootSel level :: rest) : step s = .next ({ s with sched := rest }.setBootSel level) := by
  rw [step_cons hwf hsched]
  rfl

/-! ## The step of each HOST state -/

section
variable {s : State}

theorem State.hostStep_init (h : s.host.state = .init) :
    s.hostStep = { s with host := { s.host with state := .decide } } := by
  simp [State.hostStep, h]

theorem State.hostStep_decide (h : s.host.state = .decide) : s.hostStep = s.hostDecide := by
  simp [State.hostStep, h]

theorem State.hostStep_erase (h : s.host.state = .erase) : s.hostStep = s.hostErase := by
  simp [State.hostStep, h]

theorem State.hostStep_loop (h : s.host.state = .loop) : s.hostStep = s.hostLoop := by
  simp [State.hostStep, h]

theorem State.hostStep_jump (h : s.host.state = .jump) : s.hostStep = s.hostJump := by
  simp [State.hostStep, h]

/-- `H_IDLE` and `H_APP` have no HOST step (R287). -/
theorem State.hostStep_none (h : s.host.state = .idle ∨ s.host.state = .app) : s.hostStep = s := by
  rcases h with h | h
  · simp [State.hostStep, h]
  · simp [State.hostStep, h]

/-! ## The boot selector -/

theorem State.hostDecide_updater (h : s.host.bootSel = s.cfg.bootSelActive) :
    s.hostDecide = { s with host := { s.host with state := .erase, phase := 0 } } :=
  if_pos h

theorem State.hostDecide_image (h : s.host.bootSel ≠ s.cfg.bootSelActive) :
    s.hostDecide = { s with host := { s.host with state := .jump } } :=
  if_neg h

theorem State.setBootSel_early (h : s.host.state = .init ∨ s.host.state = .decide) (level : Bool) :
    s.setBootSel level = s :=
  if_pos h

theorem State.setBootSel_late (hinit : s.host.state ≠ .init) (hdecide : s.host.state ≠ .decide) (level : Bool) :
    s.setBootSel level = { s with host := { s.host with bootSel := level } } :=
  if_neg (not_or.2 ⟨hinit, hdecide⟩)

/-! ## The phases of `H_ERASE` -/

theorem State.hostErase_ramReady (h : s.host.phase = 0) :
    s.hostErase = { s with host := { s.host with phase := 1 } }.setRamReady := by
  simp [State.hostErase, h]

theorem State.hostErase_session (h : s.host.phase = 1) (hready : s.sessionReady) :
    s.hostErase = { s with host := { s.host with phase := 2 } }.sessionReset := by
  simp [State.hostErase, h, hready]

theorem State.hostErase_held (h : s.host.phase = 1) (hwait : ¬ s.sessionReady) : s.hostErase = s := by
  simp [State.hostErase, h, hwait]

theorem State.hostErase_request (h : s.host.phase = 2) :
    s.hostErase = { s with host := { s.host with phase := 3 } }.startErase := by
  simp [State.hostErase, h]

theorem State.hostErase_report (h : s.host.phase = 3) {st : Status} (hdone : s.ports.eraseDone = some st) :
    s.hostErase = { s with
      host := { s.host with state := .loop, report := s.host.report ++ [.ready st] }
      ports := { s.ports with eraseDone := none } } := by
  simp [State.hostErase, h, hdone]

theorem State.hostErase_waits (h : s.host.phase = 3) (hdone : s.ports.eraseDone = none) : s.hostErase = s := by
  simp [State.hostErase, h, hdone]

/-! ## `H_LOOP` -/

theorem State.hostLoop_run (h : s.cons.runEnabled = false) : s.hostLoop = s.enableRun :=
  if_pos h

theorem State.hostLoop_report (h : s.cons.runEnabled = true) {n : Nat} (hdone : s.ports.transferDone = n + 1) :
    s.hostLoop = { s with
      host := { s.host with report := s.host.report ++ [.done] }
      ports := { s.ports with transferDone := n } } := by
  simp [State.hostLoop, h, hdone]

theorem State.hostLoop_waits (h : s.cons.runEnabled = true) (hdone : s.ports.transferDone = 0) : s.hostLoop = s := by
  simp [State.hostLoop, h, hdone]

end

/-! ## The inputs the HOST sends -/

theorem exec_sessionInit {s : State} (hrun : s.running) (hready : s.sessionReady) :
    exec .sessionInit s = .next s.sessionReset :=
  attempt_of ⟨hrun, hready⟩ _ _

theorem exec_ctlRun {s : State} (hloop : s.host.state = .loop) : exec .ctlRun s = .next s.enableRun :=
  attempt_of hloop _ _

/-! ## The image check -/

/-- Byte `k` of the image header as the HOST reads it: its `k`-th storage read from here. -/
def State.headerByte (s : State) (k : Nat) : Byte := s.readByte k (s.cfg.regionStart + BitVec.ofNat 32 k)

/-- It is what the array holds, or held before a command of this launch (spec/20_memory.md R84). -/
theorem State.headerByte_source (s : State) (k : Nat) :
    ∃ m ∈ s.stor :: s.past, s.headerByte k = m.read (s.cfg.regionStart + BitVec.ofNat 32 k).toNat :=
  ⟨s.readSource k, s.readSource_mem k, rfl⟩

/-- The four header bytes from the `k`-th on. -/
def State.headerHalf (s : State) (k : Nat) : Half :=
  ⟨s.headerByte k, s.headerByte (k + 1), s.headerByte (k + 2), s.headerByte (k + 3)⟩

theorem State.readHalf_header (s : State) (k : Nat) :
    s.readHalf k (s.cfg.regionStart + BitVec.ofNat 32 k) = s.headerHalf k := by
  simp only [State.readHalf, State.headerHalf, State.headerByte, addr_add_ofNat_add]
  rfl

/-- The image check, on the header's bytes (R284). -/
theorem State.hostJump_eq (s : State) :
    s.hostJump = { s.checkImage (s.headerHalf 0) (s.headerHalf 4) with draws := s.draws + 8 } := by
  have hfirst : s.readHalf 0 (appBase s.cfg) = s.headerHalf 0 := by
    rw [← s.readHalf_header 0, BitVec.add_zero]
    rfl
  rw [State.hostJump, hfirst, ← s.readHalf_header 4]
  rfl

/-- A header word is erased when its four bytes are (R286). -/
theorem State.wordErased_headerHalf (s : State) (k : Nat) :
    wordErased (s.headerHalf k) = true ↔ ∀ j < 4, s.headerByte (k + j) = 0xFF := by
  have hall : (∀ j < 4, s.headerByte (k + j) = 0xFF) ↔ s.headerByte k = 0xFF ∧ s.headerByte (k + 1) = 0xFF ∧
      s.headerByte (k + 2) = 0xFF ∧ s.headerByte (k + 3) = 0xFF := by
    simp only [Nat.forall_lt_succ_right', Nat.not_lt_zero, false_implies, implies_true, true_and, and_assoc,
      Nat.add_zero]
  rw [hall, wordErased, decide_eq_true_eq, State.headerHalf, erasedHalf, Half.mk.injEq]
  rfl

theorem wordOf_headerHalf (s : State) (k : Nat) : wordOf s.cfg.imageWordOrder (s.headerHalf k) =
    headerWord s.cfg (s.headerByte k) (s.headerByte (k + 1)) (s.headerByte (k + 2)) (s.headerByte (k + 3)) := by
  unfold wordOf headerWord
  cases s.cfg.imageWordOrder with
  | littleEndian => rfl
  | bigEndian => rfl

theorem State.hostJump_invalid {s : State}
    (h : (∀ k < 4, s.headerByte k = 0xFF) ∨ ∀ k < 4, s.headerByte (4 + k) = 0xFF) :
    s.hostJump = { s with
      draws := s.draws + 8
      host := { s.host with state := .idle, report := s.host.report ++ [.imageInvalid] } } := by
  have herased : wordErased (s.headerHalf 0) = true ∨ wordErased (s.headerHalf 4) = true := by
    simpa only [State.wordErased_headerHalf, Nat.zero_add] using h
  rw [State.hostJump_eq, State.checkImage, if_pos herased]

theorem State.hostJump_valid {s : State} (h0 : ∃ k < 4, s.headerByte k ≠ 0xFF)
    (h1 : ∃ k < 4, s.headerByte (4 + k) ≠ 0xFF) :
    s.hostJump = { s with
      draws := s.draws + 8
      host := { s.host with
        state := .app
        handoff := some {
          vectorBase := s.cfg.regionStart
          stackPointer := headerWord s.cfg (s.headerByte 0) (s.headerByte 1) (s.headerByte 2) (s.headerByte 3)
          entryPoint := headerWord s.cfg (s.headerByte 4) (s.headerByte 5) (s.headerByte 6) (s.headerByte 7) } } } := by
  have hpresent : ¬ (wordErased (s.headerHalf 0) = true ∨ wordErased (s.headerHalf 4) = true) := by
    simp only [State.wordErased_headerHalf, Nat.zero_add]
    push Not
    exact ⟨h0, h1⟩
  rw [State.hostJump_eq, State.checkImage, if_neg hpresent, wordOf_headerHalf, wordOf_headerHalf]
  rfl

/-! ## The statements -/

/-- Settles O52: the first two HOST steps, and the selector's line before and after its sample. -/
theorem hostBootsOnTheSelector : Obligations.HostBootsOnTheSelector := by
  intro s rest hwf
  refine ⟨fun hsched => ?_, fun level hsched => ?_⟩
  · rw [step_hostStep hwf hsched]
    refine ⟨fun hinit => ?_, fun hdecide hactive => ?_, fun hdecide hinactive => ?_⟩
    · rw [State.hostStep_init (by exact hinit)]
    · rw [State.hostStep_decide (by exact hdecide), State.hostDecide_updater (by exact hactive)]
    · rw [State.hostStep_decide (by exact hdecide), State.hostDecide_image (by exact hinactive)]
  · rw [step_bootSel hwf hsched]
    refine ⟨fun hearly => ?_, fun hinit hdecide => ?_⟩
    · rw [State.setBootSel_early (by exact hearly)]
    · rw [State.setBootSel_late (by exact hinit) (by exact hdecide)]

/-- Settles O53: `H_ERASE` phase by phase; what it sends is taken, since the HOST is not in `H_APP`. -/
theorem hostErasePhases : Obligations.HostErasePhases := by
  intro s rest hwf hsched herase
  have hrun : s.running := by simp [herase]
  rw [step_hostStep hwf hsched, State.hostStep_erase (by exact herase)]
  refine ⟨fun hphase => ?_, fun hphase hfree hnone => ?_, fun hphase hwait => ?_, fun hphase => ?_,
    fun st hphase hdone => ?_, fun hphase hdone => ?_⟩
  · rw [State.hostErase_ramReady (by exact hphase)]
    rfl
  · rw [State.hostErase_session (by exact hphase) (by exact ⟨hfree, hnone⟩),
      exec_sessionInit (by exact hrun) (by exact ⟨hfree, hnone⟩)]
  · have hheld : ¬ s.sessionReady := fun ⟨hfree, hnone⟩ => hwait.elim (by simp [hfree]) (absurd hnone)
    rw [State.hostErase_held (by exact hphase) (by exact hheld)]
  · rw [State.hostErase_request (by exact hphase), exec_eraseRegion (by exact hrun)]
  · rw [State.hostErase_report (by exact hphase) (by exact hdone)]
  · rw [State.hostErase_waits (by exact hphase) (by exact hdone)]

/-- Settles O54: `H_LOOP` before and after CTL_RUN. -/
theorem hostLoopRunsThenReports : Obligations.HostLoopRunsThenReports := by
  intro s rest hwf hsched hloop
  rw [step_hostStep hwf hsched, State.hostStep_loop (by exact hloop)]
  refine ⟨fun hrun => ?_, fun n hrun hdone => ?_, fun hrun hdone => ?_⟩
  · rw [State.hostLoop_run (by exact hrun), exec_ctlRun (by exact hloop)]
  · rw [State.hostLoop_report (by exact hrun) (by exact hdone)]
  · rw [State.hostLoop_waits (by exact hrun) (by exact hdone)]

/-- Settles O55: the bytes are those the HOST reads, and the check's two outcomes. -/
theorem hostChecksTheImage : Obligations.HostChecksTheImage := by
  intro s rest hwf hsched
  rw [step_hostStep hwf hsched]
  refine ⟨fun hjump => ?_, fun hnone => ?_⟩
  · rw [State.hostStep_jump (by exact hjump)]
    refine ⟨s.headerByte, fun k _ => s.headerByte_source k, fun herased => ?_, fun h0 h1 => ?_⟩
    · exact congrArg _ (State.hostJump_invalid (s := { s with sched := rest }) herased)
    · exact congrArg _ (State.hostJump_valid (s := { s with sched := rest }) h0 h1)
  · rw [State.hostStep_none (by exact hnone)]

end Sys2Proof.Machine
end

section
/-! The resets (spec/70_reset_and_hazards.md R300 to R302): the power-on state meets every invariant, an external reset
interrupts the outstanding command by drawing its target, and SESSION_INIT where it is enabled. -/

namespace Sys2Proof.Machine

/-! ## Power-on -/

/-- The power-on state meets each invariant (spec/10_state.md R48): nothing is queued, held, counted, pending or
outstanding, and CONS is off without a fault. -/
theorem State.Inv.powerOn {c : Config} (hwf : c.wf = true) (level : Bool) {m : Memory} (hm : m.wf = true) (d : Nat)
    (sched : List Event) : (State.powerOn c level m d sched).Inv := by
  have hcap : 1 ≤ c.bqCap := by
    simp only [Config.wf, Bool.and_eq_true, decide_eq_true_eq] at hwf
    obtain ⟨⟨⟨⟨⟨-, hcap⟩, -⟩, -⟩, -⟩, -⟩ := hwf
    exact hcap
  have hstate : (State.powerOn c level m d sched).cons.state = .off := rfl
  have hport : (State.powerOn c level m d sched).PortInv :=
    State.PortInv.of_free rfl (by simp [hstate]) (State.MergeInv.of_absent rfl)
  have hfault : (State.powerOn c level m d sched).FaultInv :=
    State.FaultInv.of_free rfl rfl (by simp [hstate]) (by simp [hstate])
  exact ⟨hwf, State.QueueInv.powerOn hcap level m d sched, State.LinesInv.of_empty rfl rfl, hport, hfault,
    Nat.zero_le _, State.CountersInv.of_zero rfl rfl, hm⟩

/-- The configuration of reset is one the model runs, whatever its OPEN parameters are (spec/00_scope.md R10, log 3). -/
theorem cfg0_wf : Config.cfg0.wf = true := by decide

/-- Settles O57: the reset state is the power-on state of CFG0 with erased storage. -/
theorem powerOnMeetsTheInvariants : Obligations.PowerOnMeetsTheInvariants :=
  ⟨fun _ level _ d sched hwf hm => State.Inv.powerOn hwf level hm d sched,
    State.Inv.powerOn cfg0_wf true Memory.wf_nil 0 []⟩

/-! ## The external reset -/

theorem State.targetLength_eq (s : State) :
    s.targetLength = if s.sc.op = .program8 then 8 else s.cfg.sectorSize := by
  cases hop : s.sc.op with
  | program8 => rw [State.targetLength_program8 hop, if_pos rfl]
  | eraseSector => rw [State.targetLength_eraseSector hop, if_neg (by simp)]

/-- A command's target is no larger than the address space, so no address of it is drawn twice. -/
theorem State.targetLength_le {s : State} (hwf : s.cfg.wf = true) : s.targetLength ≤ 2 ^ 32 := by
  cases hop : s.sc.op with
  | program8 => rw [State.targetLength_program8 hop]; omega
  | eraseSector => rw [State.targetLength_eraseSector hop]; exact sectorSize_le hwf

/-- The reset interrupts the outstanding command: its whole target is drawn (spec/44_storage.md R235). -/
theorem State.interruptStorage_busy {s : State} (hbusy : s.sc.busy = true) :
    s.interruptStorage = s.drawStorage s.sc.addr s.targetLength := by
  rw [State.interruptStorage, if_pos hbusy]
  cases hop : s.sc.op with
  | program8 => rw [State.targetLength_program8 hop]
  | eraseSector => rw [State.targetLength_eraseSector hop]

theorem State.relaunch_free {s : State} (level : Bool) (hfree : s.sc.busy = false) :
    s.relaunch level = State.powerOn s.cfg level s.stor s.draws s.sched := by
  rw [State.relaunch, State.interruptStorage_free hfree]

theorem State.relaunch_busy {s : State} (level : Bool) (hbusy : s.sc.busy = true) :
    s.relaunch level = State.powerOn s.cfg level (s.drawStorage s.sc.addr s.targetLength).stor
      (s.draws + s.targetLength) s.sched := by
  rw [State.relaunch, State.interruptStorage_busy hbusy, State.drawStorage_draws]

theorem step_externalReset {s : State} (hwf : s.cfg.wf = true) {level : Bool} {rest : List Event}
    (hsched : s.sched = .externalReset level :: rest) : step s = .next ({ s with sched := rest }.relaunch level) := by
  rw [step_cons hwf hsched]
  rfl

/-- Settles O56: the storage is carried over, and an interrupted command's target, `targetLength` bytes, is drawn. -/
theorem externalResetRelaunches : Obligations.ExternalResetRelaunches := by
  intro s level rest hwf hsched
  rw [step_externalReset hwf hsched]
  refine ⟨fun hfree => ?_, fun hbusy => ?_⟩
  · rw [State.relaunch_free level (by exact hfree)]
  · refine ⟨(s.drawStorage s.sc.addr s.targetLength).stor, s.targetLength, s.targetLength_eq, ?_,
      fun hcanonical k hk => State.read_drawStorage hcanonical _ (State.targetLength_le hwf) hk,
      fun a ha => s.drawStorage_storByte_other ha⟩
    rw [State.relaunch_busy level (by exact hbusy)]
    rfl

/-! ## SESSION_INIT -/

/-- Settles O49: outside `H_APP`, with the port free and nothing held, SESSION_INIT is taken, and its body is the
SESSION_INIT column of spec/10_state.md R48. -/
theorem sessionInitResetsIngestion : Obligations.SessionInitResetsIngestion := by
  intro s happ hfree hnone
  have hrun : s.running := happ
  rw [exec_sessionInit hrun ⟨hfree, hnone⟩]
  rfl

end Sys2Proof.Machine
end
